-- ==== Sys2Proof/Word.lean ====
section
/-! DEFINITION. The word types of the N96 and the fixed sets of names that instruction fields use
(00_scope.md R6 R7, 03_numbers.md R87). -/
namespace Sys2Proof

abbrev Byte := BitVec 8
abbrev W16 := BitVec 16
abbrev W32 := BitVec 32
abbrev W64 := BitVec 64

/-- g0 to g31 (R184). -/
abbrev GReg := BitVec 5
/-- h0 to h15 (R21). -/
abbrev HReg := BitVec 4
/-- k0 to k7 (R184). -/
abbrev KReg := BitVec 3

/-- The six scopes of R6, in widening order. -/
inductive Scope where
  | strand | core | cluster | stack | device | domain
deriving DecidableEq, Repr

/-- The code of a scope in an instruction (R236). -/
def Scope.code : Scope → Nat
  | .strand => 0 | .core => 1 | .cluster => 2 | .stack => 3 | .device => 4 | .domain => 5

/-- The order an atomic carries (R236). -/
inductive Order where
  | relaxed | acquire | release | acqRel | seqCst
deriving DecidableEq, Repr

/-- The kind of a FENCE (R241). -/
inductive FenceKind where
  | acq | rel | acqRel | sc
deriving DecidableEq, Repr

/-- The format of a scalar floating-point instruction (R202). -/
inductive FpFmt where
  | s | b
deriving DecidableEq, Repr

/-- The size of a local or mesh access (R232): 1, 2, 4 or 8 bytes. -/
inductive MemSize where
  | b | h | w | d
deriving DecidableEq, Repr

def MemSize.bytes : MemSize → Nat
  | .b => 1 | .h => 2 | .w => 4 | .d => 8

/-- The size of an atomic (R236): 4 or 8 bytes. -/
inductive AtSize where
  | w | d
deriving DecidableEq, Repr

def AtSize.bytes : AtSize → Nat
  | .w => 4 | .d => 8

/-- The kind of register a cross-bank move names (R263). -/
inductive XKind where
  | g | k | pc | fps
deriving DecidableEq, Repr

/-- A master of the management registers (R488): host, board controller, fabric manager. -/
inductive Master where
  | host | board | fabric
deriving DecidableEq, Repr

def Master.code : Master → Nat
  | .host => 1 | .board => 2 | .fabric => 3

end Sys2Proof
end

