-- ==== Sys2Proof/Config.lean ====
section
/-! DEFINITION. What the manual leaves open: constants without a body, so that nothing can be proved about their values
(log entries 8 to 13 and 16). -/
namespace Sys2Proof.Config

/-- Values that the manual leaves undefined, one for each count taken (log entry 8; R325). -/
opaque freeValue : Nat → BitVec 64

/-- The LLC slice that is home to the 64-byte line of a physical address (R58: "fixed by the address"; log entry 9). -/
opaque homeSlice : Nat → Nat

/-- The HBM4 pseudo-channel that holds a physical address (R2, R494; log entry 89). -/
opaque channelOf : Nat → Nat

/-- The doublewords of the identity statement (R491; log entry 70). -/
opaque identity : Nat → BitVec 64

/-- Which other device numbers are members of the domain of a device that is a domain member (R403; log entry 10). -/
opaque domainMember : Nat → Bool

/-- The first signature of a firmware image verifies (R491; log entry 11). -/
opaque signatureRsa : List Byte → Bool

/-- The second signature of a firmware image verifies (R491; log entry 11). -/
opaque signatureSlh : List Byte → Bool

/-- The digest of the keys of an image equals the fused digest (R491; log entry 11). -/
opaque keyDigest : List Byte → Bool

/-- The minimum image version held in fuses (R491; log entry 11). -/
opaque fusedVersion : Nat

/-- The kind field and the detail of a machine-check record where the manual gives no coding: the model's own number of the
event, and what the record tells (R495; log entry 16). -/
opaque recordKind : Nat → BitVec 8
opaque recordDetail : Nat → List Nat → BitVec 128

/-- The form in which MU.SAVE writes plane contents: byte `i` of the plane regions is the content under this mask (R325; log entry 13). -/
opaque planeMask : Nat → Byte

/-- The correctly rounded value of a transcendental function where the model's enclosures do not decide it; first the code of
the function, then the operand (R349; log entry 12). -/
opaque undecided : Nat → Nat → BitVec 32

end Sys2Proof.Config
end

