-- ==== Sys2Proof/Syntax.lean ====
section
/-! DEFINITION. The steps of the N96 as one inductive: every strand and lookup instruction (05 to 07, 09, 10 R318, 13 to 16),
every press slot instruction (11_matrix_unit_bundles.md) and every event of the opcode table (95_what_each_step_holds.md),
one constructor for each row of the table. -/
namespace Sys2Proof

/-- The fields of MMA and MMAK (R337); CNT is derived from N and AW. `n1` is N - 1 and `kx1` is KX - 1. -/
structure MOp where
  guard : BitVec 4
  yt    : BitVec 3
  bank  : BitVec 3
  trow  : BitVec 6
  brow  : BitVec 5
  n1    : BitVec 5
  kx1   : BitVec 8
  koff  : BitVec 8
  aw    : Bool
deriving DecidableEq, Repr

/-- Width of a V instruction (R346): 256, 512 or 1,024 bits. -/
inductive Wid where
  | w256 | w512 | w1024
deriving DecidableEq, Repr

/-- Element type of a V instruction (R346). -/
inductive VTy where
  | f32 | bf16
deriving DecidableEq, Repr

/-- The fields of a V slot instruction (R346); `v1` says that it stands in slot V1. CNT is derived. -/
structure VOp where
  v1    : Bool
  guard : BitVec 4
  wid   : Wid
  ty    : VTy
  vd    : BitVec 6
  va    : BitVec 6
  vb    : BitVec 6
  ss    : BitVec 5
deriving DecidableEq, Repr

/-- The MODE fields of VCVT besides MD (R351). -/
structure CvtMode where
  ifmt : BitVec 3
  p    : BitVec 3
  sc   : Bool
deriving DecidableEq, Repr

/-- The eight slots of a press in mask order (R294, R328). -/
inductive PressSlot where
  | m | a | v0 | v1 | c | q | s | b
deriving DecidableEq, Repr

/-- What a press fault records (R322). -/
structure PressFaultRec where
  code  : Nat
  slot  : Nat
  res   : Bool
  fslip : Nat
  part  : Bool
  arg   : Nat
  fpc   : Nat
deriving DecidableEq, Repr

/-- How an access or command at another device ended (R404, R408, R416, R421). -/
inductive RemoteStatus where
  | done | already | empty | memerr | closed | stale | domain | window | linkdown | bounds
deriving DecidableEq, Repr

/-- The answer of another device: an input of the machine. `clock` is the clock of the home slice that a window access reached
there (R58). -/
structure RemoteReply where
  status : RemoteStatus
  value  : W64
  data   : List Byte
  count  : Nat
  clock  : W64
deriving DecidableEq, Repr

/-- A request that another device of the domain makes of this device (R404, R408, R411 to R416). `dev` is the requester;
an endpoint is a mesh address in absolute form, or a window address when `win` is set (R406). A write has `n` rows of `b` bytes,
row i at ep + i * stride, of which `data` is what the source could give; tile rows go to consecutive rows of a tile, and `last`
asks for the seal behind them (R412, R413). `clock` is the clock of the requesting core (R58). -/
inductive RemoteRequest where
  | read     (dev : Nat) (ep : W64) (win : Bool) (n : Nat)
  | write    (dev : Nat) (ep : W64) (win : Bool) (n b stride : Nat) (data : List Byte)
  | tileRows (dev : Nat) (tile : W64) (b : Nat) (data : List Byte) (last : Bool)
  | seal     (dev : Nat) (handle : W32)
  | atomic   (dev : Nat) (ep : W64) (win : Bool) (aop : BitVec 4) (size : AtSize) (n m clock : W64)
  | post     (dev core eq : Nat) (word clock : W64)
  | taskdec  (dev core off : Nat)
deriving DecidableEq, Repr

/-- What one member brings to an instance of an all-reduce (R418). -/
structure Contribution where
  dev     : Nat
  op      : Nat
  count   : Nat
  members : BitVec 256
  data    : List W64
deriving DecidableEq, Repr

/-- A unit whose soft errors are counted (R494). -/
inductive ErrUnit where
  | hbm (channel page : Nat)
  | bank (cl b : Nat)
  | core (u : Nat)
  | press (p : Nat)
  | link (l : Nat)
deriving DecidableEq, Repr

/-- What the management controller reads (R484): the average package power in watts and the hottest sensor in degrees Celsius. -/
structure Reading where
  watts : Nat
  degrees : Nat
deriving DecidableEq, Repr

/-- An access of a master to the registers for which the opcode table has no row: a read of BAR0, the setting of a fault window (in
nanoseconds) and threshold, the clearing of a link's counters, and a write to the staging area (R490, R493). -/
inductive Access where
  | read      (off : Nat)
  | limits    (e : ErrUnit) (window threshold : Nat)
  | clearLink (l : Nat)
  | stage     (off : Nat) (data : List Byte)
deriving DecidableEq, Repr

/-- The steps of the machine, one constructor per row of the opcode table. Field names follow the table:
d a b s general registers, k p q condition bits, h a handle, i an immediate. In AMOCAS `d` is half of the even gd. -/
inductive Instr where
  -- major 0x1
  | add (d a b : GReg)  -- ADD (R191)
  | sub (d a b : GReg)  -- SUB (R191)
  | and (d a b : GReg)  -- AND (R191)
  | or (d a b : GReg)  -- OR (R191)
  | xor (d a b : GReg)  -- XOR (R191)
  | andn (d a b : GReg)  -- ANDN (R191)
  | orn (d a b : GReg)  -- ORN (R191)
  | xnor (d a b : GReg)  -- XNOR (R191)
  | sll (d a b : GReg)  -- SLL (R191)
  | srl (d a b : GReg)  -- SRL (R191)
  | sra (d a b : GReg)  -- SRA (R191)
  | rol (d a b : GReg)  -- ROL (R191)
  | ror (d a b : GReg)  -- ROR (R191)
  | min (d a b : GReg)  -- MIN (R191)
  | max (d a b : GReg)  -- MAX (R191)
  | minu (d a b : GReg)  -- MINU (R191)
  | maxu (d a b : GReg)  -- MAXU (R191)
  | addw (d a b : GReg)  -- ADDW (R191)
  | subw (d a b : GReg)  -- SUBW (R191)
  | sllw (d a b : GReg)  -- SLLW (R191)
  | srlw (d a b : GReg)  -- SRLW (R191)
  | sraw (d a b : GReg)  -- SRAW (R191)
  | mul (d a b : GReg)  -- MUL (R191)
  | mulh (d a b : GReg)  -- MULH (R191)
  | mulhu (d a b : GReg)  -- MULHU (R191)
  | mulw (d a b : GReg)  -- MULW (R191)
  | sel (d a b : GReg) (k : KReg)  -- SEL (R191)
  -- major 0x2
  | clz (d a : GReg)  -- CLZ (R196)
  | ctz (d a : GReg)  -- CTZ (R196)
  | popc (d a : GReg)  -- POPC (R196)
  | brev (d a : GReg)  -- BREV (R196)
  | bswap (d a : GReg)  -- BSWAP (R196)
  | sextB (d a : GReg)  -- SEXT_B (R196)
  | sextH (d a : GReg)  -- SEXT_H (R196)
  | sextW (d a : GReg)  -- SEXT_W (R196)
  | zextW (d a : GReg)  -- ZEXT_W (R196)
  | crcB (d a b : GReg)  -- CRC_B (R197)
  | crcH (d a b : GReg)  -- CRC_H (R197)
  | crcW (d a b : GReg)  -- CRC_W (R197)
  | crcD (d a b : GReg)  -- CRC_D (R197)
  | hmix (d a b : GReg)  -- HMIX (R198)
  -- major 0x3
  | ceq (k : KReg) (a b : GReg)  -- CEQ (R199)
  | cne (k : KReg) (a b : GReg)  -- CNE (R199)
  | clt (k : KReg) (a b : GReg)  -- CLT (R199)
  | cge (k : KReg) (a b : GReg)  -- CGE (R199)
  | cltu (k : KReg) (a b : GReg)  -- CLTU (R199)
  | cgeu (k : KReg) (a b : GReg)  -- CGEU (R199)
  | ctst (k : KReg) (a b : GReg)  -- CTST (R199)
  | kand (k p q : KReg)  -- KAND (R199)
  | kor (k p q : KReg)  -- KOR (R199)
  | kxor (k p q : KReg)  -- KXOR (R199)
  | kandn (k p q : KReg)  -- KANDN (R199)
  | knot (k p : KReg)  -- KNOT (R199)
  | kset (k : KReg)  -- KSET (R199)
  | kclr (k : KReg)  -- KCLR (R199)
  -- major 0x4
  | fadd (d a b : GReg) (f : FpFmt)  -- FADD (R204)
  | fsub (d a b : GReg) (f : FpFmt)  -- FSUB (R204)
  | fmul (d a b : GReg) (f : FpFmt)  -- FMUL (R204)
  | fma (d a b : GReg) (f : FpFmt)  -- FMA (R204)
  | fmin (d a b : GReg) (f : FpFmt)  -- FMIN (R205)
  | fmax (d a b : GReg) (f : FpFmt)  -- FMAX (R205)
  | fabs (d a : GReg) (f : FpFmt)  -- FABS (R206)
  | fneg (d a : GReg) (f : FpFmt)  -- FNEG (R206)
  | fcpys (d a b : GReg) (f : FpFmt)  -- FCPYS (R206)
  | frcp (d a : GReg) (f : FpFmt)  -- FRCP (R207)
  | frsq (d a : GReg) (f : FpFmt)  -- FRSQ (R207)
  | fclass (d a : GReg) (f : FpFmt)  -- FCLASS (R208)
  | fceq (k : KReg) (a b : GReg) (f : FpFmt)  -- FCEQ (R209)
  | fclt (k : KReg) (a b : GReg) (f : FpFmt)  -- FCLT (R209)
  | fcle (k : KReg) (a b : GReg) (f : FpFmt)  -- FCLE (R209)
  | fcun (k : KReg) (a b : GReg) (f : FpFmt)  -- FCUN (R209)
  | fcvtSB (d a : GReg)  -- FCVT_S_B (R210)
  | fcvtBS (d a : GReg)  -- FCVT_B_S (R210)
  | ftow (d a : GReg) (t : Bool) (f : FpFmt)  -- FTOW (R211)
  | ftowu (d a : GReg) (t : Bool) (f : FpFmt)  -- FTOWU (R211)
  | ftol (d a : GReg) (t : Bool) (f : FpFmt)  -- FTOL (R211)
  | ftolu (d a : GReg) (t : Bool) (f : FpFmt)  -- FTOLU (R211)
  | wtof (d a : GReg) (f : FpFmt)  -- WTOF (R212)
  | wutof (d a : GReg) (f : FpFmt)  -- WUTOF (R212)
  | ltof (d a : GReg) (f : FpFmt)  -- LTOF (R212)
  | lutof (d a : GReg) (f : FpFmt)  -- LUTOF (R212)
  -- major 0x8
  | addi (d a : GReg) (i : BitVec 16)  -- ADDI (R193)
  -- major 0x9
  | andi (d a : GReg) (i : BitVec 16)  -- ANDI (R193)
  -- major 0xa
  | ori (d a : GReg) (i : BitVec 16)  -- ORI (R193)
  -- major 0xb
  | xori (d a : GReg) (i : BitVec 16)  -- XORI (R193)
  -- major 0xc
  | slli (d a : GReg) (s : BitVec 6)  -- SLLI (R193)
  -- major 0xd
  | srli (d a : GReg) (s : BitVec 6)  -- SRLI (R193)
  -- major 0xe
  | srai (d a : GReg) (s : BitVec 6)  -- SRAI (R193)
  -- major 0xf
  | rori (d a : GReg) (s : BitVec 6)  -- RORI (R193)
  -- major 0x10
  | ceqi (k : KReg) (a : GReg) (i : BitVec 16)  -- CEQI (R200)
  -- major 0x11
  | cnei (k : KReg) (a : GReg) (i : BitVec 16)  -- CNEI (R200)
  -- major 0x12
  | clti (k : KReg) (a : GReg) (i : BitVec 16)  -- CLTI (R200)
  -- major 0x13
  | cgei (k : KReg) (a : GReg) (i : BitVec 16)  -- CGEI (R200)
  -- major 0x14
  | cltui (k : KReg) (a : GReg) (i : BitVec 16)  -- CLTUI (R200)
  -- major 0x15
  | cgeui (k : KReg) (a : GReg) (i : BitVec 16)  -- CGEUI (R200)
  -- major 0x16
  | movz (d : GReg) (s : BitVec 2) (i : BitVec 16)  -- MOVZ (R194)
  -- major 0x17
  | movk (d : GReg) (s : BitVec 2) (i : BitVec 16)  -- MOVK (R194)
  -- major 0x18
  | movn (d : GReg) (s : BitVec 2) (i : BitVec 16)  -- MOVN (R194)
  -- major 0x1b
  | extu (d a : GReg) (l p : BitVec 6)  -- EXTU (R195)
  | exts (d a : GReg) (l p : BitVec 6)  -- EXTS (R195)
  | ins (d a : GReg) (l p : BitVec 6)  -- INS (R195)
  -- major 0x1c
  | pkk (d : GReg) (m : BitVec 8)  -- PKK (R201)
  -- major 0x1d
  | upk (a : GReg) (m : BitVec 8)  -- UPK (R201)
  -- major 0x20
  | beq (a b : GReg) (o : BitVec 16)  -- BEQ (R214)
  -- major 0x21
  | bne (a b : GReg) (o : BitVec 16)  -- BNE (R214)
  -- major 0x22
  | blt (a b : GReg) (o : BitVec 16)  -- BLT (R214)
  -- major 0x23
  | bge (a b : GReg) (o : BitVec 16)  -- BGE (R214)
  -- major 0x24
  | bltu (a b : GReg) (o : BitVec 16)  -- BLTU (R214)
  -- major 0x25
  | bgeu (a b : GReg) (o : BitVec 16)  -- BGEU (R214)
  -- major 0x26
  | bkt (k : KReg) (o : BitVec 16)  -- BKT (R214)
  -- major 0x27
  | bkf (k : KReg) (o : BitVec 16)  -- BKF (R214)
  -- major 0x28
  | j (o : BitVec 26)  -- J (R216)
  -- major 0x29
  | call (n : BitVec 7) (o : BitVec 16)  -- CALL (R217)
  -- major 0x2a
  | jr (a : GReg)  -- JR (R218)
  | callr (a : GReg) (n : BitVec 7)  -- CALLR (R218)
  | ret  -- RET (R145)
  -- major 0x2c
  | spl (d : GReg) (o : BitVec 6)  -- SPL (R221)
  -- major 0x2d
  | fil (d : GReg) (o : BitVec 6)  -- FIL (R221)
  -- major 0x30
  | ld (d a : GReg) (h : HReg) (i : BitVec 12)  -- LD (R230)
  -- major 0x31
  | st (s a : GReg) (h : HReg) (i : BitVec 12)  -- ST (R230)
  -- major 0x32
  | lda (d a : GReg) (h : HReg) (r : Order) (c : Scope) (z : AtSize) (m : Bool)  -- LDA (R237)
  | sta (d a : GReg) (h : HReg) (r : Order) (c : Scope) (z : AtSize) (m : Bool)  -- STA (R237)
  | amoswap (d a : GReg) (h : HReg) (r : Order) (c : Scope) (z : AtSize) (m : Bool)  -- AMOSWAP (R237)
  | amocas (d : BitVec 4) (a : GReg) (h : HReg) (r : Order) (c : Scope) (z : AtSize) (m : Bool)  -- AMOCAS (R238)
  | amoadd (d a : GReg) (h : HReg) (r : Order) (c : Scope) (z : AtSize) (m : Bool)  -- AMOADD (R237)
  | amoand (d a : GReg) (h : HReg) (r : Order) (c : Scope) (z : AtSize) (m : Bool)  -- AMOAND (R237)
  | amoor (d a : GReg) (h : HReg) (r : Order) (c : Scope) (z : AtSize) (m : Bool)  -- AMOOR (R237)
  | amoxor (d a : GReg) (h : HReg) (r : Order) (c : Scope) (z : AtSize) (m : Bool)  -- AMOXOR (R237)
  | amomin (d a : GReg) (h : HReg) (r : Order) (c : Scope) (z : AtSize) (m : Bool)  -- AMOMIN (R237)
  | amomax (d a : GReg) (h : HReg) (r : Order) (c : Scope) (z : AtSize) (m : Bool)  -- AMOMAX (R237)
  | amominu (d a : GReg) (h : HReg) (r : Order) (c : Scope) (z : AtSize) (m : Bool)  -- AMOMINU (R237)
  | amomaxu (d a : GReg) (h : HReg) (r : Order) (c : Scope) (z : AtSize) (m : Bool)  -- AMOMAXU (R237)
  | amofadd (d a : GReg) (h : HReg) (r : Order) (c : Scope) (m : Bool)  -- AMOFADD (R239)
  -- major 0x33
  | ll (d a : GReg) (z : MemSize) (x : Bool) (i : BitVec 12)  -- LL (R233)
  | lm (d a : GReg) (z : MemSize) (x : Bool) (i : BitVec 12)  -- LM (R233)
  -- major 0x34
  | sl (s a : GReg) (z : MemSize) (i : BitVec 12)  -- SL (R233)
  | sm (s a : GReg) (z : MemSize) (i : BitVec 12)  -- SM (R235)
  -- major 0x35
  | xlat (d a : GReg) (h : HReg) (w : Bool)  -- XLAT (R228)
  | hdrop (h : HReg)  -- HDROP (R229)
  | pref (a : GReg) (h : HReg) (i : BitVec 8)  -- PREF (R229)
  -- major 0x36
  | fence (k : FenceKind) (s : Scope)  -- FENCE (R242)
  | ifence  -- IFENCE (R242)
  | rdid (d : GReg) (n : BitVec 4)  -- RDID (R262)
  | time (d : GReg)  -- TIME (R262)
  | trap (e : BitVec 11)  -- TRAP (R262)
  | eret  -- ERET (R170)
  | mfsr (d : GReg) (n : BitVec 4)  -- MFSR (R262)
  | mtsr (a : GReg) (n : BitVec 4)  -- MTSR (R262)
  | xget (d : GReg) (k : XKind) (n : BitVec 5)  -- XGET (R263)
  | xput (a : GReg) (k : XKind) (n : BitVec 5)  -- XPUT (R263)
  -- major 0x37
  | start (d a : GReg)  -- START (R253)
  | spawn (d a b : GReg)  -- SPAWN (R254)
  | exit  -- EXIT (R157)
  | yield (n : BitVec 6)  -- YIELD (R255)
  | waitq (d : GReg) (n : BitVec 2)  -- WAITQ (R257)
  | postq (d a b : GReg) (n : BitVec 2)  -- POSTQ (R256)
  | taskdec (d a : GReg)  -- TASKDEC (R258)
  | msend (a b : GReg) (t : BitVec 6)  -- MSEND (R259)
  | mrecv (d : GReg) (t : BitVec 6)  -- MRECV (R260)
  | pmerge (d a b : GReg)  -- PMERGE (R261)
  -- major 0x3e
  | topen (d a b : GReg)  -- TOPEN (R246)
  | twrH (a b : GReg)  -- TWR_H (R247)
  | twrW (a b : GReg)  -- TWR_W (R247)
  | twrD (a b : GReg)  -- TWR_D (R247)
  | tpos (a b : GReg)  -- TPOS (R247)
  | trmap (a b : GReg)  -- TRMAP (R247)
  | tmaskOr (a b : GReg)  -- TMASK_OR (R247)
  | tmaskClr (a b : GReg)  -- TMASK_CLR (R247)
  | tmaskSet (a b : GReg)  -- TMASK_SET (R247)
  | tstat (d a : GReg) (s : BitVec 5)  -- TSTAT (R248)
  | tdrop (a : GReg)  -- TDROP (R247)
  | seal (d a : GReg)  -- SEAL (R250)
  | tcnt (d : GReg) (c : Bool) (n : BitVec 1)  -- TCNT (R249)
  -- major 0x38
  | cpySetr (a : GReg) (c n : BitVec 3)  -- CPY_SETR (R270)
  | cpyGetr (d : GReg) (c n : BitVec 3)  -- CPY_GETR (R272)
  | cpyDesc (d a b : GReg)  -- CPY_DESC (R275)
  | cpyDfree (d a : GReg)  -- CPY_DFREE (R276)
  | cpyLin (d : GReg) (c : BitVec 3)  -- CPY_LIN (R277)
  | cpyTen (d : GReg) (c : BitVec 3)  -- CPY_TEN (R278)
  | cpyTile (d a b : GReg) (e o : Bool) (c : BitVec 3)  -- CPY_TILE (R279)
  | cpyWblk (d a : GReg) (p : Bool) (c : BitVec 3)  -- CPY_WBLK (R282)
  | cpyRblk (d : GReg) (c : BitVec 3)  -- CPY_RBLK (R283)
  | cpyKvg (d : GReg) (c : BitVec 3)  -- CPY_KVG (R284)
  | cpyPgin (d a : GReg) (c : BitVec 3)  -- CPY_PGIN (R286)
  | cpyPgout (d a : GReg) (c : BitVec 3)  -- CPY_PGOUT (R286)
  | cpyAbort (d : GReg) (c : BitVec 3)  -- CPY_ABORT (R289)
  -- major 0x39
  | muGetr (d a : GReg) (u : BitVec 1)  -- MU_GETR (R318)
  | muSetr (a b : GReg) (u : BitVec 1)  -- MU_SETR (R318)
  | muGets (d a : GReg) (u : BitVec 1)  -- MU_GETS (R318)
  | muSets (a b : GReg) (u : BitVec 1)  -- MU_SETS (R318)
  | muImld (a b : GReg) (u : BitVec 1)  -- MU_IMLD (R319)
  | muStart (a : GReg) (u : BitVec 1)  -- MU_START (R318)
  | muStop (d : GReg) (u : BitVec 1)  -- MU_STOP (R318)
  | muReset (u : BitVec 1)  -- MU_RESET (R320)
  | muSave (a b : GReg) (u : BitVec 1)  -- MU_SAVE (R323)
  | muLoad (a b : GReg) (u : BitVec 1)  -- MU_LOAD (R323)
  | muResume (u : BitVec 1)  -- MU_RESUME (R318)
  -- major 0x3a
  | lkPost (d a b : GReg)  -- LK_POST (R385)
  | lkImld (a b : GReg)  -- LK_IMLD (R384)
  | lkRun (a b : GReg)  -- LK_RUN (R384)
  | lkHalt (d a : GReg)  -- LK_HALT (R384)
  | lkStat (d a : GReg) (n : BitVec 3)  -- LK_STAT (R382)
  | lkTdesc (d a b : GReg)  -- LK_TDESC (R388)
  | lkTfree (d a : GReg)  -- LK_TFREE (R388)
  | lkBopen (a : GReg)  -- LK_BOPEN (R391)
  | lkFetch (d a : GReg)  -- LK_FETCH (R392)
  | lkBclose (d a : GReg)  -- LK_BCLOSE (R394)
  | lkBdrop (d : GReg)  -- LK_BDROP (R394)
  | lkSeal (d a : GReg)  -- LK_SEAL (R395)
  | lkWclr  -- LK_WCLR (R393)
  | lkFib (d a b : GReg) (n : BitVec 3)  -- LK_FIB (R396)
  | lkSpout (d a : GReg) (h : HReg)  -- LK_SPOUT (R397)
  | lkGetc (d : GReg) (n : BitVec 3)  -- LK_GETC (R399)
  -- major 0x3b
  | kvcfg (d a : GReg)  -- KVCFG (R427)
  | kvmatch (d a : GReg) (p : Bool)  -- KVMATCH (R439)
  | kvinsert (d a : GReg)  -- KVINSERT (R440)
  | kvappend (d a : GReg)  -- KVAPPEND (R441)
  | kvref (d a : GReg)  -- KVREF (R442)
  | kvunref (d a : GReg) (p : Bool)  -- KVUNREF (R443)
  | kvpin (d a : GReg)  -- KVPIN (R444)
  | kvunpin (d a : GReg)  -- KVUNPIN (R445)
  | kvbt (d a : GReg)  -- KVBT (R447)
  | kvtier (d a : GReg)  -- KVTIER (R447)
  | kvstat (d a : GReg)  -- KVSTAT (R448)
  -- major 0x3c
  | fabSetr (a : GReg) (c : BitVec 2) (n : BitVec 3)  -- FAB_SETR (R405)
  | fabGetr (d : GReg) (c : BitVec 2) (n : BitVec 3)  -- FAB_GETR (R405)
  | fabPut (d : GReg) (c : BitVec 2)  -- FAB_PUT (R411)
  | fabGet (d : GReg) (c : BitVec 2)  -- FAB_GET (R411)
  | fabPuts (d : GReg) (c : BitVec 2)  -- FAB_PUTS (R412)
  | fabTput (d : GReg) (e : Bool) (c : BitVec 2)  -- FAB_TPUT (R413)
  | fabSeal (d a : GReg) (c : BitVec 2)  -- FAB_SEAL (R414)
  | fabAred (d a : GReg) (c : BitVec 2)  -- FAB_ARED (R418)
  | fabGrp (d a b : GReg)  -- FAB_GRP (R417)
  | fabWin (d a b : GReg)  -- FAB_WIN (R407)
  | fabWfree (d a : GReg)  -- FAB_WFREE (R408)
  | fabLstat (d a : GReg)  -- FAB_LSTAT (R423)
  | fabLda (d a : GReg) (z : AtSize) (c : BitVec 2)  -- FAB_LDA (R416)
  | fabSta (d a : GReg) (z : AtSize) (c : BitVec 2)  -- FAB_STA (R416)
  | fabAmoswap (d a : GReg) (z : AtSize) (c : BitVec 2)  -- FAB_AMOSWAP (R416)
  | fabAmocas (d a b : GReg) (z : AtSize) (c : BitVec 2)  -- FAB_AMOCAS (R416)
  | fabAmoadd (d a : GReg) (z : AtSize) (c : BitVec 2)  -- FAB_AMOADD (R416)
  | fabAmoand (d a : GReg) (z : AtSize) (c : BitVec 2)  -- FAB_AMOAND (R416)
  | fabAmoor (d a : GReg) (z : AtSize) (c : BitVec 2)  -- FAB_AMOOR (R416)
  | fabAmoxor (d a : GReg) (z : AtSize) (c : BitVec 2)  -- FAB_AMOXOR (R416)
  | fabAmomin (d a : GReg) (z : AtSize) (c : BitVec 2)  -- FAB_AMOMIN (R416)
  | fabAmomax (d a : GReg) (z : AtSize) (c : BitVec 2)  -- FAB_AMOMAX (R416)
  | fabAmominu (d a : GReg) (z : AtSize) (c : BitVec 2)  -- FAB_AMOMINU (R416)
  | fabAmomaxu (d a : GReg) (z : AtSize) (c : BitVec 2)  -- FAB_AMOMAXU (R416)
  | fabAmofadd (d a : GReg) (c : BitVec 2)  -- FAB_AMOFADD (R416)
  -- major 0x3d
  | dqQcfg (d a b : GReg)  -- DQ_QCFG (R455)
  | dqPush (d a b : GReg)  -- DQ_PUSH (R478)
  | dqQget (d a : GReg) (n : BitVec 3)  -- DQ_QGET (R479)
  | dqPrio (a b : GReg)  -- DQ_PRIO (R478)
  | dqQen (a b : GReg)  -- DQ_QEN (R478)
  -- press slot instructions
  | mma (x : MOp)  -- MMA (R338)
  | mmak (x : MOp)  -- MMAK (R338)
  | azero (guard : BitVec 4) (bank : BitVec 3) (tag : BitVec 4)  -- AZERO (R340)
  | aread (guard : BitVec 4) (bank : BitVec 3) (row : BitVec 5) (v8 : BitVec 3) (haar : Bool)  -- AREAD (R341)
  | areadC (guard : BitVec 4) (bank : BitVec 3) (row : BitVec 5) (v8 : BitVec 3)  -- AREAD_C (R341)
  | awrite (guard : BitVec 4) (bank : BitVec 3) (row : BitVec 5) (v8 : BitVec 3) (acc : Bool)  -- AWRITE (R342)
  | abias (guard : BitVec 4) (bank : BitVec 3) (row0 : BitVec 5) (v8 : BitVec 3) (n1 : BitVec 5)  -- ABIAS (R343)
  | astore (guard : BitVec 4) (bank : BitVec 3) (y : BitVec 3) (row0 n1 : BitVec 5) (haar : Bool)  -- ASTORE (R344)
  | astoreW (guard : BitVec 4) (bank : BitVec 3) (y : BitVec 3) (sp : BitVec 5)  -- ASTORE_W (R345)
  | vadd (x : VOp)  -- VADD (R348)
  | vsub (x : VOp)  -- VSUB (R348)
  | vmul (x : VOp)  -- VMUL (R348)
  | vfma (x : VOp)  -- VFMA (R348)
  | vmin (x : VOp)  -- VMIN (R348)
  | vmax (x : VOp)  -- VMAX (R348)
  | vabs (x : VOp)  -- VABS (R348)
  | vneg (x : VOp)  -- VNEG (R348)
  | vscl (x : VOp)  -- VSCL (R348)
  | vadds (x : VOp)  -- VADDS (R348)
  | vmov (x : VOp)  -- VMOV (R348)
  | vbcast (x : VOp)  -- VBCAST (R348)
  | vredSum (x : VOp)  -- VRED_SUM (R350)
  | vredMax (x : VOp)  -- VRED_MAX (R350)
  | vrcp (x : VOp)  -- VRCP (R348)
  | vrsq (x : VOp)  -- VRSQ (R348)
  | vexp2 (x : VOp)  -- VEXP2 (R349)
  | vlog2 (x : VOp)  -- VLOG2 (R349)
  | vtanh (x : VOp)  -- VTANH (R349)
  | vgelu (x : VOp)  -- VGELU (R349)
  | vcvtBf (x : VOp) (m : CvtMode)  -- VCVT_BF (R351)
  | vcvtFb (x : VOp) (m : CvtMode)  -- VCVT_FB (R351)
  | vcvtFi (x : VOp) (m : CvtMode)  -- VCVT_FI (R351)
  | vcvtIf (x : VOp) (m : CvtMode)  -- VCVT_IF (R351)
  | vrope (x : VOp)  -- VROPE (R352)
  | bload (guard : BitVec 4) (y : BitVec 3) (plane : BitVec 1) (k0 : BitVec 5) (n1 : BitVec 6) (bw : BitVec 2)  -- BLOAD (R354)
  | bswapp (guard : BitVec 4)  -- BSWAPP (R355)
  | bscl (guard : BitVec 4) (plane : BitVec 1) (vs : BitVec 6)  -- BSCL (R355)
  | qpop (guard : BitVec 4) (y : BitVec 3) (q : BitVec 2)  -- QPOP (R308)
  | qrel (guard : BitVec 4) (y : BitVec 3)  -- QREL (R357)
  | qpush (guard : BitVec 4) (y : BitVec 3) (u : BitVec 1) (q : BitVec 2)  -- QPUSH (R358)
  | qpushE (guard : BitVec 4) (y : BitVec 3) (core : BitVec 4) (eq : BitVec 2)  -- QPUSH_E (R358)
  | sadd (guard : BitVec 4) (sd sa sb : BitVec 5)  -- SADD (R360)
  | ssub (guard : BitVec 4) (sd sa sb : BitVec 5)  -- SSUB (R360)
  | sand (guard : BitVec 4) (sd sa sb : BitVec 5)  -- SAND (R360)
  | sor (guard : BitVec 4) (sd sa sb : BitVec 5)  -- SOR (R360)
  | sxor (guard : BitVec 4) (sd sa sb : BitVec 5)  -- SXOR (R360)
  | sshl (guard : BitVec 4) (sd sa sb : BitVec 5)  -- SSHL (R360)
  | sshr (guard : BitVec 4) (sd sa sb : BitVec 5)  -- SSHR (R360)
  | ssra (guard : BitVec 4) (sd sa sb : BitVec 5)  -- SSRA (R360)
  | smul (guard : BitVec 4) (sd sa sb : BitVec 5)  -- SMUL (R360)
  | smin (guard : BitVec 4) (sd sa sb : BitVec 5)  -- SMIN (R360)
  | smax (guard : BitVec 4) (sd sa sb : BitVec 5)  -- SMAX (R360)
  | sminu (guard : BitVec 4) (sd sa sb : BitVec 5)  -- SMINU (R360)
  | smaxu (guard : BitVec 4) (sd sa sb : BitVec 5)  -- SMAXU (R360)
  | saddi (guard : BitVec 4) (sd sa : BitVec 5) (e : BitVec 14)  -- SADDI (R360)
  | smovi (guard : BitVec 4) (sd : BitVec 5) (e : BitVec 19)  -- SMOVI (R360)
  | smovh (guard : BitVec 4) (sd : BitVec 5) (e : BitVec 16)  -- SMOVH (R360)
  | scmp (guard cn cm : BitVec 4) (sa sb : BitVec 5) (cond : BitVec 3)  -- SCMP (R361)
  | scmpi (guard cn cm : BitVec 4) (sa : BitVec 5) (cond : BitVec 3) (e : BitVec 8)  -- SCMPI (R361)
  | sfadd (guard : BitVec 4) (sd sa sb : BitVec 5)  -- SFADD (R362)
  | sfsub (guard : BitVec 4) (sd sa sb : BitVec 5)  -- SFSUB (R362)
  | sfmul (guard : BitVec 4) (sd sa sb : BitVec 5)  -- SFMUL (R362)
  | sfmin (guard : BitVec 4) (sd sa sb : BitVec 5)  -- SFMIN (R362)
  | sfmax (guard : BitVec 4) (sd sa sb : BitVec 5)  -- SFMAX (R362)
  | sfrcp (guard : BitVec 4) (sd sa : BitVec 5)  -- SFRCP (R362)
  | sfrsq (guard : BitVec 4) (sd sa : BitVec 5)  -- SFRSQ (R362)
  | sitof (guard : BitVec 4) (sd sa : BitVec 5)  -- SITOF (R362)
  | sftoi (guard : BitVec 4) (sd sa : BitVec 5)  -- SFTOI (R362)
  | sget (guard : BitVec 4) (sd : BitVec 5) (sel : BitVec 8)  -- SGET (R363)
  | sset (guard : BitVec 4) (sel : BitVec 8) (sa : BitVec 5)  -- SSET (R363)
  | svget (guard : BitVec 4) (sd : BitVec 5) (vs : BitVec 6) (lane : BitVec 5)  -- SVGET (R363)
  | pand (guard cd ca cb : BitVec 4)  -- PAND (R361)
  | por (guard cd ca cb : BitVec 4)  -- POR (R361)
  | pxor (guard cd ca cb : BitVec 4)  -- PXOR (R361)
  | pandn (guard cd ca cb : BitVec 4)  -- PANDN (R361)
  | br (guard : BitVec 4) (tgt : BitVec 14)  -- BR (R365)
  | loop (guard : BitVec 4) (s : BitVec 5) (tgt : BitVec 14)  -- LOOP (R365)
  | stop (guard : BitVec 4)  -- STOP (R365)
  -- events
  | fetchBlockRead (u slot : Nat)  -- FETCH_BLOCK_READ (R150)
  | l1Fill (u line : Nat)  -- L1_FILL (R231)
  | fifoWriteback (u : Nat)  -- FIFO_WRITEBACK (R61)
  | releaseComplete (u slot : Nat)  -- RELEASE_COMPLETE (R62)
  | replicaInvalidationDone (u slot : Nat)  -- REPLICA_INVALIDATION_DONE (R77)
  | backInvalidateSnoop (line : Nat) (now : Option (BitVec 512))  -- BACK_INVALIDATE_SNOOP (R80)
  | remoteReply (u slot : Nat) (r : RemoteReply)  -- REMOTE_REPLY (R404)
  | waitqTake (u slot : Nat)  -- WAITQ_TAKE (R257)
  | mrecvTake (u slot : Nat)  -- MRECV_TAKE (R260)
  | msendAccept (u slot : Nat)  -- MSEND_ACCEPT (R259)
  | controlExitComplete (u : Nat)  -- CONTROL_EXIT_COMPLETE (R157)
  | partEndReport (u : Nat)  -- PART_END_REPORT (R291)
  | tileTimerExpiry (cl b : Nat)  -- TILE_TIMER_EXPIRY (R28)
  | tilePosting (cl mu q : Nat)  -- TILE_POSTING (R33)
  | qpopArmedTake (p q : Nat)  -- QPOP_ARMED_TAKE (R308)
  | heldInstructionResume (p : Nat) (e : PressSlot)  -- HELD_INSTRUCTION_RESUME (R309)
  | pressStopped (p : Nat)  -- PRESS_STOPPED (R314)
  | pressFaultSettled (p : Nat)  -- PRESS_FAULT_SETTLED (R314)
  | pressEventPost (p : Nat)  -- PRESS_EVENT_POST (R317)
  | copyCommandStart (cl ch : Nat)  -- COPY_COMMAND_START (R72)
  | copyDelivery (cl ch ahead : Nat)  -- COPY_DELIVERY (R71)
  | copyCommandComplete (cl ch : Nat)  -- COPY_COMMAND_COMPLETE (R287)
  | rblkBlockStart (cl ch : Nat)  -- RBLK_BLOCK_START (R283)
  | tierMissEventPost (cl ch : Nat)  -- TIER_MISS_EVENT_POST (R285)
  | pinRequest (cl ch : Nat)  -- PIN_REQUEST (R437)
  | spliceCommandExecute  -- SPLICE_COMMAND_EXECUTE (R437)
  | spliceMovingResume  -- SPLICE_MOVING_RESUME (R437)
  | fabCommandComplete (u ctx : Nat) (r : RemoteReply)  -- FAB_COMMAND_COMPLETE (R420)
  | fabRemoteRequest (q : RemoteRequest)  -- FAB_REMOTE_REQUEST (R408)
  | aredInstanceComplete (g : Nat) (others : List Contribution)  -- ARED_INSTANCE_COMPLETE (R419)
  | aredTimeout (g : Nat)  -- ARED_TIMEOUT (R419)
  | flitCrcRetry (link : Nat)  -- FLIT_CRC_RETRY (R422)
  | linkLaneLoss (link : Nat)  -- LINK_LANE_LOSS (R422)
  | linkDown (link : Nat) (lost : List Nat)  -- LINK_DOWN (R422)
  | recordAdmit (q : Nat)  -- RECORD_ADMIT (R459)
  | taskSelect  -- TASK_SELECT (R461)
  | taskBind  -- TASK_BIND (R466)
  | preemption  -- PREEMPTION (R476)
  | taskRestore  -- TASK_RESTORE (R477)
  | taskEnd (key : Nat)  -- TASK_END (R474)
  | taskFaultEnd (key : Nat)  -- TASK_FAULT_END (R474)
  | runListJoin (core : Nat)  -- RUN_LIST_JOIN (R472)
  | powerUp  -- POWER_UP (R490)
  | owncas (m : Master) (v : W64)  -- OWNCAS (R488)
  | fwgo (m : Master) (v : W64)  -- FWGO (R490)
  | firmwareVerifyDone  -- FIRMWARE_VERIFY_DONE (R491)
  | devnum (m : Master) (v : W64)  -- DEVNUM (R492)
  | ptroot (m : Master) (v : W64)  -- PTROOT (R492)
  | invva (m : Master) (v : W64)  -- INVVA (R492)
  | invalidationAck  -- INVALIDATION_ACK (R23)
  | run (m : Master) (v : W64)  -- RUN (R492)
  | rst (m : Master) (v : W64)  -- RST (R496)
  | doorbell (m : Master) (q : Nat) (v : W64)  -- DOORBELL (R487)
  | bar2Read (off n : Nat)  -- BAR2_READ (R486)
  | bar2Write (off : Nat) (data : List Byte)  -- BAR2_WRITE (R486)
  | bar0RegisterWrite (m : Master) (off : Nat) (v : W64)  -- BAR0_REGISTER_WRITE (R501)
  | ownerPathFailure (m : Master)  -- OWNER_PATH_FAILURE (R489)
  | clockThrottle (r : Reading)  -- CLOCK_THROTTLE (R484)
  | thermalTrip  -- THERMAL_TRIP (R484)
  | correctedError (e : ErrUnit)  -- CORRECTED_ERROR (R494)
  | faultWindowExpiry (e : ErrUnit)  -- FAULT_WINDOW_EXPIRY (R494)
  | illegalInstruction (w : W32)  -- ILLEGAL_INSTRUCTION (R188)
  | illegalBundle (p : Nat) (f : PressFaultRec)  -- ILLEGAL_BUNDLE (R332)
  | pressFetchFault (p fpc : Nat)  -- PRESS_FETCH_FAULT (R321)
  | lookupFetchFault  -- LOOKUP_FETCH_FAULT (R378)
  | pressContextImageDone (p : Nat)  -- PRESS_CONTEXT_IMAGE_DONE (R323)
  | postedStoreLanding (i : Nat)  -- POSTED_STORE_LANDING (R66)
  | linkUp (link : Nat)  -- LINK_UP (R422)
  | portBDown  -- PORT_B_DOWN (R424)
  | portBUp (hdm : List (W64 × W64))  -- PORT_B_UP (R424)
  | uncorrectableError (granule : Nat)  -- UNCORRECTABLE_ERROR (R498)
deriving DecidableEq, Repr

end Sys2Proof
end

