-- ==== Sys2Proof/Machine/State.lean ====
section
/-! DEFINITION. The state of the machine as plain data, and the state after reset (INVENTORY.md, '## State'). -/
namespace Sys2Proof.Machine

/-- A table keyed by numbers; a key that is not listed has the reset record of its kind. -/
abbrev Map (α : Type) := List (Nat × α)

/-! ### Outcomes -/

/-- Why the machine stops with a fault. -/
inductive Fault where
  /-- A strand, press or engine of the device reaches a physical address that R486 leaves unmapped; the manual gives that
  access no outcome (only a host access has one). Raised by every access to global memory. Safe: the hardware may go on. -/
  | unmappedPhysical (addr : Nat)
deriving DecidableEq, Repr

/-- Why an instruction has no meaning. -/
inductive Refusal where
  /-- The instruction has no meaning in this model yet; raised by the dispatch alone. Safe. -/
  | notModelled (mnemonic : String)
deriving DecidableEq, Repr

/-! ### Strand and lookup slots (05_strand_engine_core.md R141; 13_lookup_engine.md R378) -/

/-- Page sizes (R21). -/
inductive PageSize where
  | p4k | p2m | p1g
deriving DecidableEq, Repr

/-- A handle register (R21). -/
structure Handle where
  v     : Bool := false
  w     : Bool := false
  pool  : Bool := false
  psz   : PageSize := .p4k
  rd    : Bool := false
  vbase : W64 := 0
  pbase : W64 := 0
  span  : W64 := 0
deriving DecidableEq, Repr

/-- The registers held per bank (R141). -/
structure Bank where
  g      : Map W64 := []
  h      : Map Handle := []
  k      : BitVec 8 := 0
  pc     : BitVec 16 := 0
  fps    : W32 := 0
  estat  : W32 := 0
  epc    : W32 := 0
  ecause : W32 := 0
  eval   : W64 := 0
  evec   : W32 := 0
  escr0  : W64 := 0
  escr1  : W64 := 0
  escr2  : W64 := 0
  escr3  : W64 := 0
deriving DecidableEq, Repr

/-- SLOTST.STATE (R142, R166). -/
inductive SlotState where
  | free | run | wait | halt
deriving DecidableEq, Repr

/-- What a load, store or atomic of a slot waits for at another device (R404, R416). -/
inductive RemoteOp where
  | load (gd : GReg) (bytes : Nat) (signed : Bool) (addr : W64)
  | store (gs : GReg) (addr : W64)
  | atomic (gd : GReg) (code : BitVec 4) (order : Order) (scope : Scope) (addr : W64)
  | fab (gd : GReg) (code : BitVec 4) (rem : W64)
  | value (gd : GReg) (wr : Bool) (addr : W64)
deriving DecidableEq, Repr

/-- Why a slot does not issue (R138, R142). -/
inductive Wait where
  | none
  /-- an LD waits for its line (R231): destination, physical address, virtual address for a memory error, handle number -/
  | load (gd : GReg) (pa : Nat) (va : W64) (h : Nat)
  /-- a store waits until a way of its set is clean (R149, R231); the instruction runs again -/
  | way (line : Nat)
  /-- a release drains (R62); the instruction runs again when it is complete -/
  | release
  /-- a store or atomic waits for the replicas of its line (R77); the instruction runs again when they are gone -/
  | replica (line : Nat)
  /-- a SEAL waits for a place in the target queue (R33) -/
  | posting (gd : GReg) (cl b : Nat)
  | waitq (gd : GReg) (n ticket : Nat)
  | mrecv (gd : GReg) (tag ticket : Nat)
  | msend (target tag : Nat) (word : W64) (scope : Scope) (ticket : Nat)
  /-- the control strand's EXIT waits for its helpers (R157) -/
  | exit
  | remote (op : RemoteOp)
  /-- a command waits for a free queue entry (R274, R410, R434); the instruction runs again -/
  | queue
  /-- the last instruction made translations and lasts until the slot is ready again (R275, R407, R427) -/
  | creating
deriving DecidableEq, Repr

/-- The translation of one page, as a descriptor, window or ring holds it (R275, R407, R455). -/
structure PageTr where
  va   : Nat
  size : Nat
  pa   : Nat
  pool : Bool
  rd   : Bool
deriving DecidableEq, Repr

/-- A tensor descriptor (R275). -/
structure TensorDesc where
  valid : Bool
  vbase : Nat
  esz   : Nat
  ndim  : Nat
  w     : Bool
  dims  : List Nat
  strs  : List Nat
  pages : List PageTr
  task  : Option Nat
deriving DecidableEq, Repr

/-- What an instruction that waits keeps from its issue: the handle of an access (R23), the number of slots that an LK.HALT found
(R382), or the registers and descriptors that a command has latched before its wait (R274, R405). -/
inductive Latch where
  | handle (h : Handle)
  | count (n : Nat)
  | command (regs : Map W64) (src dst : Option TensorDesc) (wide : Bool)
deriving DecidableEq, Repr

/-- Pooling of a bag (R390). -/
inductive Pool where
  | sum | mean | max
deriving DecidableEq, Repr

/-- An open bag of a lookup slot (R391). -/
structure Bag where
  desc : Nat
  pool : Pool
  im   : Bool
  n    : Nat
  acc  : List W32
deriving DecidableEq, Repr

/-- A slot of a strand core or a lookup core (R141, R378). -/
structure Slot where
  st      : SlotState := .free
  bank    : Bool := false
  pfp     : Bool := false
  pfvec   : W32 := 0
  b0      : Bank := {}
  b1      : Bank := {}
  fb      : BitVec 10 := 0
  spill   : Map W64 := []
  fetch   : List W32 := []
  /-- words of a block read behind others: the offset from which they lie, and the cycle in which they reach the buffer (R150) -/
  landing : List (Nat × Nat) := []
  readyAt : Nat := 0
  wait    : Wait := .none
  /-- the release of the instruction at PC is complete (R62) -/
  drained : Bool := false
  /-- the replicas of the line that the instruction at PC writes are gone (R77) -/
  clearedLine : Option Nat := none
  /-- what the instruction at PC has latched, while it waits -/
  latched : Option Latch := none
  bag     : Option Bag := none
  sparse  : Map W32 := []
  acqMark : Nat := 0
  /-- a posted store to this device was dropped for want of a route (R404) -/
  linkDrop : Option Nat := none
deriving DecidableEq, Repr

/-! ### Cores -/

/-- A line of an L1 (R148): 64 bytes, those valid, those that are the core's own unwritten stores, the granules that came with
an error, and its recency. -/
structure Line where
  data    : BitVec 512 := 0
  valid   : BitVec 64 := 0
  dirty   : BitVec 64 := 0
  bad     : BitVec 8 := 0
  ro      : Bool := false
  filling : Bool := false
  used    : Nat := 0
  /-- cycle in which the line became dirty (R60) -/
  since   : Nat := 0
deriving DecidableEq, Repr

/-- An entry of the first-dirty FIFO (R61, R62). -/
inductive FifoEntry where
  | line (n : Nat)
  | marker (slot : Nat)
deriving DecidableEq, Repr

/-- An entry of an event queue (R256). -/
structure EqEntry where
  word  : W64
  scope : Scope
deriving DecidableEq, Repr

/-- An entry of an inbox (R259). -/
structure Message where
  word   : W64
  tag    : Nat
  sender : Nat
  scope  : Scope
deriving DecidableEq, Repr

/-- An export window of this device as a command latches it when it is accepted (R408). -/
structure LatchedWin where
  win   : Nat
  vbase : Nat
  pages : List PageTr
deriving DecidableEq, Repr

/-- A fabric command in a context queue (R405, R410): its registers, the windows of this device that it names, the elements that
it contributes to an all-reduce (R418), and its place in the order of commands (R415). -/
structure FabCmd where
  fn     : Nat
  seq    : Nat
  slot   : Nat
  loc    : W64
  rem    : W64
  geom   : W64
  aux    : W64
  cw     : W64
  opnd   : W64
  sealed : Bool
  locWin : Option LatchedWin
  remWin : Option LatchedWin
  /-- a window of this device failed its check (R408) -/
  noWin  : Bool
  data   : List W64
  order  : Nat
deriving DecidableEq, Repr

/-- A fabric context (R405). -/
structure Ctx where
  regs  : Map W64 := []
  seq   : BitVec 16 := 0
  queue : List FabCmd := []
deriving DecidableEq, Repr

/-- A table descriptor of a lookup core (R387, R388). -/
structure TableDesc where
  valid : Bool
  csr   : Bool
  bf16  : Bool
  nrows : Nat
  el    : Nat
  vbase : Nat
  rstr  : Nat
  vval  : Nat
  nnz   : Nat
  pages : List PageTr
deriving DecidableEq, Repr

/-- An entry of the deduplication window (R393). -/
structure WindowEntry where
  desc  : Nat
  index : Nat
  row   : List W32
  mark  : Nat
deriving DecidableEq, Repr

/-- What a lookup core holds beside its slots (R377). -/
structure Lookup where
  run    : Bool := false
  skipc  : W32 := 0
  whit   : W32 := 0
  fhit   : W32 := 0
  fmiss  : W32 := 0
  desc   : Map TableDesc := []
  /-- oldest first -/
  window : List WindowEntry := []
deriving DecidableEq, Repr

/-- A strand core or a lookup core. -/
structure Core where
  /-- the selector's last slot plus one; 0 stands for the reset value (R137, R378) -/
  next      : Nat := 0
  /-- first cycle in which the core may select again -/
  issueAt   : Nat := 0
  slots     : Map Slot := []
  /-- first cycle in which the fetch unit can serve a slot, and the slot that it served last plus one (R150) -/
  fetchAt   : Nat := 0
  fetchNext : Nat := 0
  l1        : Map Line := []
  /-- lines that PREF has requested (R229) -/
  pref      : List Nat := []
  fifo      : List FifoEntry := []
  eq        : Map (List EqEntry) := []
  inbox     : List Message := []
  ident     : Map W64 := []
  /-- key of the task whose part is bound here (R465) -/
  task      : Option Nat := none
  /-- the part has ended and its report waits for the part's operations (R157, R291) -/
  ended     : Bool := false
  /-- its slots stop, each at its next instruction boundary (R176, R384) -/
  stopping  : Bool := false
  fab       : Map Ctx := []
  look      : Lookup := {}
deriving DecidableEq, Repr

/-! ### Clusters: tiles and the copy unit -/

/-- STATE of a tile buffer (R26). -/
inductive TileState where
  | free | open_ | sealed | queued | held
deriving DecidableEq, Repr

/-- A tile buffer's control word and metadata (R26, R27). -/
structure Buffer where
  state  : TileState := .free
  timed  : Bool := false
  haar   : Bool := false
  gen    : BitVec 8 := 0
  fmt    : BitVec 4 := 0
  queue  : BitVec 2 := 0
  mu     : BitVec 1 := 0
  rows   : Nat := 0
  pitch  : Nat := 0
  timer  : BitVec 16 := 0
  vmask  : BitVec 64 := 0
  pos    : Map (BitVec 24) := []
  rmap   : Map (BitVec 5) := []
  /-- cycle at which an armed timer reaches 0 (R32) -/
  due    : Nat := 0
  /-- the press that holds the tile (R28) -/
  holder : Option Nat := none
  /-- order in which the tile began to wait for its queue (R33, R311) -/
  ticket : Nat := 0
deriving DecidableEq, Repr

/-- A page as a pin reports it (R284, R444). -/
structure PinnedPage where
  page  : Nat
  pool  : Bool
  frame : Nat
deriving DecidableEq, Repr

/-- Where a running copy command stands. -/
inductive CopyPhase where
  /-- queued, not started -/
  | queued
  /-- waits for the Splice engine's pins or frame (R284, R286) -/
  | request
  /-- waits for a permit and a free buffer (R283) -/
  | permit
  | running
  /-- posts tier-miss events (R285) -/
  | posting
  /-- ended; the completion word is to be written -/
  | ended
deriving DecidableEq, Repr

/-- A transfer command in a channel queue (R270, R274), with its progress. -/
structure CopyCmd where
  fn     : Nat
  seq    : Nat
  unit   : Nat
  task   : Option Nat
  regs   : Map W64
  opnd   : W64
  drop   : Bool
  sealed : Bool
  src    : Option TensorDesc
  dst    : Option TensorDesc
  phase  : CopyPhase := .queued
  /-- bytes, rows or elements delivered -/
  done   : Nat := 0
  /-- source bytes read ahead of delivery, and the key of the granule in error at which reading stopped -/
  ahead  : List Byte := []
  halt   : Option Nat := none
  /-- CPY.ABORT stops it at its next 64-byte destination boundary (R289) -/
  aborting : Bool := false
  status : Nat := 0
  count  : Nat := 0
  pins   : List PinnedPage := []
  noted  : List Nat := []
  /-- source offset of the current block (R283), or page of a move (R286) -/
  place  : Nat := 0
  /-- header of the current block: MASK (R283), or the rows of a block being written (R282) -/
  mask   : BitVec 32 := 0
  /-- first position of the current block (R283) -/
  pos0   : Nat := 0
  /-- rows of the current block that have landed (R283) -/
  row    : Nat := 0
  /-- buffer and generation of the current tile -/
  tile   : Option (Nat × BitVec 8) := none
  /-- target frame and old frame of a move (R286) -/
  frames : Option (Nat × Nat) := none
deriving DecidableEq, Repr

/-- A channel of a copy unit (R270). -/
structure Chan where
  regs    : Map W64 := []
  wp      : BitVec 40 := 0
  seq     : BitVec 16 := 0
  queue   : List CopyCmd := []
  permits : List (Nat × BitVec 8) := []
deriving DecidableEq, Repr

/-- A cluster: its tile buffers, tile counters and copy unit (R13, R35, R270). -/
structure Cluster where
  bufs  : Map Buffer := []
  /-- ECNT and RCNT as they stood before cycle `countAt`, and the increments of that cycle (R35) -/
  ecnt  : W32 := 0
  rcnt  : W32 := 0
  ecntNew : Nat := 0
  rcntNew : Nat := 0
  countAt : Nat := 0
  chans : Map Chan := []
  descs : Map TensorDesc := []
deriving DecidableEq, Repr

/-! ### Presses (10_matrix_unit_core.md R294) -/

/-- A plane and its record (R294, R295). Rows hold 256 elements of 16 bits. -/
structure Plane where
  rows    : Map (BitVec 4096) := []
  rfmt    : BitVec 3 := 0
  valid   : Bool := false
  loading : Bool := false
  kext    : Nat := 0
  scales  : BitVec 256 := 0
deriving DecidableEq, Repr

/-- A tile register with its snapshot (R308). -/
structure TileReg where
  v      : Bool := false
  arm    : Bool := false
  armq   : Nat := 0
  armSeq : Nat := 0
  rdy    : Bool := false
  handle : W32 := 0
  fmt    : BitVec 4 := 0
  haar   : Bool := false
  rows   : Nat := 0
  pitch  : Nat := 0
  vmask  : BitVec 64 := 0
  pos    : Map (BitVec 24) := []
  rmap   : Map (BitVec 5) := []
deriving DecidableEq, Repr

/-- STATE of a press (R314). -/
inductive PressState where
  | stopped | run | fault | stopping
deriving DecidableEq, Repr

/-- An instruction of an issue group with the offset and the ordinal of its bundle (R304). -/
structure Issue where
  instr  : Instr
  fpc    : Nat
  bundle : Nat
deriving DecidableEq, Repr

/-- An instruction that can be held (R309), with the fields of its slot word. -/
inductive HeldOp where
  | mma (x : MOp)
  | mmak (x : MOp)
  | bload (guard : BitVec 4) (y : BitVec 3) (plane : BitVec 1) (k0 : BitVec 5) (n1 : BitVec 6) (bw : BitVec 2)
  | astore (guard : BitVec 4) (bank : BitVec 3) (y : BitVec 3) (row0 n1 : BitVec 5) (haar : Bool)
  | astoreW (guard : BitVec 4) (bank : BitVec 3) (y : BitVec 3) (sp : BitVec 5)
  | qrel (guard : BitVec 4) (y : BitVec 3)
  | qpush (guard : BitVec 4) (y : BitVec 3) (u : BitVec 1) (q : BitVec 2)
  | qpushE (guard : BitVec 4) (y : BitVec 3) (core : BitVec 4) (eq : BitVec 2)
deriving DecidableEq, Repr

/-- A held record (R309): the instruction with its guard, NFMT and operands as read at issue, the offset and ordinal of its
bundle, and, for a QPUSH, its place in the wait for a queue. -/
structure Held where
  instr  : HeldOp
  guard  : Bool
  nfmt   : W32
  sp     : W32
  th     : List W32
  fpc    : Nat
  bundle : Nat
  ticket : Nat
deriving DecidableEq, Repr

/-- A result that is not visible yet (R305, R333), or a change that falls at the end of a beat (R336). -/
inductive PWrite where
  | v (i : Nat) (val : BitVec 1024) (haar : Bool)
  | s (i : Nat) (val : W32)
  | c (i : Nat) (val : Bool)
  | th (i : Nat) (val : W32)
  | row (bank r : Nat) (val : BitVec 8192)
  | tag (bank code : Nat)
  | dropped (bank n : Nat)
  | planeRow (p r : Nat) (val : BitVec 4096)
  | planeEnd (p kext : Nat)
  /-- a load that a memory error ends: the record as it was before (R322) -/
  | planeStop (p : Nat) (rfmt : BitVec 3) (valid : Bool) (kext : Nat) (scales : BitVec 256)
  | swap
  | scales (p : Nat) (val : BitVec 256)
  | rdy (y : Nat)
  /-- a QREL or QPUSH clears its tile register (R308, R333, R358) -/
  | gone (y : Nat)
  /-- SSET of PFS, AMAX and SATC, applied before the commits of its beat (R336) -/
  | setPfs (clear : W32)
  | setAmax (val : W32)
  | setSatc (val : W32)
  /-- commit of an instruction: flags, AMAX candidate and saturations (R102, R336) -/
  | commit (flags amax : W32) (satc : Nat)
  /-- rows that an ASTORE or ASTORE.W writes into the tile of a handle, with its mask, RMAP and POS0 (R344, R345) -/
  | tile (y : Nat) (h : W32) (rows : List (Nat × List Byte)) (mask : BitVec 64) (haar : Option (List Nat × BitVec 24))
  /-- a memory error at a key, found while an instruction runs (R322 PART) -/
  | part (rec : PressFaultRec) (key : Nat)
deriving DecidableEq, Repr

/-- A copy into instruction memory, or a context image, under way (R319, R323). -/
inductive PressBusy where
  | imld (until_ : Nat)
  | save (unit desc : Nat) (pages : List PageTr) (va : Nat) (cw : W64)
  | load (unit desc : Nat) (pages : List PageTr) (va : Nat) (cw : W64)
deriving DecidableEq, Repr

/-- A press. -/
structure Press where
  planes  : Map Plane := []
  /-- plane P1 is the active one (R295) -/
  active1 : Bool := false
  acc     : Map (Map (BitVec 8192)) := []
  tags    : Map (BitVec 4) := []
  dropc   : Map W32 := []
  v       : Map (BitVec 1024) := []
  vtag    : BitVec 64 := 0
  s       : Map W32 := []
  /-- c1 to c15; c0 reads 1 (R294) -/
  c       : BitVec 16 := 0
  y       : Map TileReg := []
  /-- q0 to q3: handle, and whether QPUSH placed it (R28), oldest first -/
  q       : Map (List (W32 × Bool)) := []
  nfmt    : W32 := 0x00018011
  /-- pending writes of NFMT, each with the ordinal of the first bundle that it governs (R313) -/
  nfmtPend : List (W32 × Nat) := []
  pfs     : W32 := 0
  amax    : W32 := 0
  satc    : W32 := 0
  th      : Map W32 := []
  rsize   : BitVec 2 := 0
  rrb     : BitVec 5 := 0
  pc      : Nat := 0
  st      : PressState := .stopped
  fcause  : W32 := 0
  fpc     : W32 := 0
  evt     : W64 := 0
  cyc     : W64 := 0
  /-- held records by slot code: M 0, A 1, C 4, Q 5 -/
  held    : Map Held := []
  /-- the beat that runs, and its device cycle -/
  beat    : Nat := 0
  cycle   : Nat := 0
  /-- bundles issued so far (R313) -/
  bundles : Nat := 0
  /-- first beat at which each slot, lane group and bank is free (R299, R300, R306) -/
  slotFree : Map Nat := []
  laneFree : Map Nat := []
  bankFree : Map Nat := []
  /-- first beat at which a tile register is free of its writer, and of its readers (R335) -/
  yWriter : Map Nat := []
  yReader : Map Nat := []
  pend    : List (Nat × PWrite) := []
  /-- instructions of the group now issuing that are still to be performed, and the earliest beat of the next group -/
  issue   : List Issue := []
  nextAt  : Nat := 0
  /-- offset and ordinal of the bundle of the instruction that issues -/
  atFpc   : Nat := 0
  atBundle : Nat := 0
  /-- the fault that the check of the group found for the instruction that issues (R321) -/
  found   : Option PressFaultRec := none
  /-- a fault has been recorded and the running slots drain (R314); its device cycle -/
  faulted : Bool := false
  faultAt : Nat := 0
  armSeq  : Nat := 0
  /-- events to post: the word, EVT as it stood, and for a fault the cycle in which it was raised (R317, R327) -/
  evPost  : List (W64 × W64 × Option Nat) := []
  busy    : Option PressBusy := none
deriving DecidableEq, Repr

/-! ### Device-wide state -/

/-- Where a posted store goes (R66 to R68, R231, R380). -/
inductive PostDest where
  | localMem (core : Nat)
  | line (n : Nat)
  | device (dev : Nat) (core : Nat)
deriving DecidableEq, Repr

/-- A posted store in flight. -/
structure Posted where
  unit  : Nat
  slot  : Nat
  dest  : PostDest
  addr  : W64
  bytes : List Byte
deriving DecidableEq, Repr

/-- A pool line held in an LLC slice (R79). -/
structure PoolLine where
  dirty : Bool := false
  used  : Nat := 0
deriving DecidableEq, Repr

/-- A line of a fibre cache (R398): its data, when it was filled and last used. -/
structure FibreLine where
  data  : BitVec 512 := 0
  fill  : Nat := 0
  used  : Nat := 0
deriving DecidableEq, Repr

/-- An export window (R407). -/
structure Window where
  valid : Bool
  vbase : Nat
  limit : Nat
  w     : Bool
  acc   : BitVec 256
  pages : List PageTr
deriving DecidableEq, Repr

/-- A group of devices (R417) with its next instance. -/
structure Group where
  members : BitVec 256 := 0
  tmo     : Nat := 0
  inst    : Nat := 0
deriving DecidableEq, Repr

/-- An all-reduce instance to which this device has contributed (R418): core and context of the command. -/
structure Instance_ where
  group : Nat
  inst  : Nat
  unit  : Nat
  ctx   : Nat
  seq   : Nat
deriving DecidableEq, Repr

/-- A Kweger link (R423). -/
structure Link where
  state : Nat := 0
  lanes : Nat := 0
  retry : Nat := 0
  fecc  : Nat := 0
  ldown : Nat := 0
deriving DecidableEq, Repr

/-- The fabric engine (14_fabric_engine.md). -/
structure Fabric where
  windows : Map Window := []
  groups  : Map Group := []
  insts   : List Instance_ := []
  links   : Map Link := []
  portB   : Nat := 0
  noRoute : List Nat := []
  order   : Nat := 0
deriving DecidableEq, Repr

/-- The configuration of the Splice engine (R426) with the translations of its four ranges (R428). -/
structure SpliceCfg where
  mbase : Nat
  hbase : Nat
  qbase : Nat
  sbase : Nat
  hfr   : Nat
  qfr   : Nat
  npage : Nat
  lp    : Nat
  nseq  : Nat
  maxp  : Nat
  rsu   : Nat
  nodes : Nat
  ssize : Nat
  pages : List PageTr
deriving DecidableEq, Repr

/-- A Splice command in the queue (R434): how far it has come when it waits on a MOVING page (R437). -/
structure SpliceCmd where
  fn     : Nat
  arg    : Nat
  opt    : Bool
  serial : W32
  unit   : Nat
  task   : Option Nat
  /-- progress of the command at the head of the queue -/
  step   : Nat := 0
  acc1   : Nat := 0
  acc2   : Nat := 0
  cur    : Nat := 0
  args   : List Nat := []
deriving DecidableEq, Repr

/-- A page move between its steps 1 and 5 (R286). -/
structure Move where
  page  : Nat
  toPool : Bool
  frame : Nat
  old   : Nat
  cl    : Nat
  ch    : Nat
deriving DecidableEq, Repr

/-- The Splice engine (15_splice_engine.md). A free set is held as the sorted list of what is taken (R449). -/
structure Splice where
  cfg      : Option SpliceCfg := none
  queue    : List SpliceCmd := []
  serial   : W32 := 0
  /-- the head command waits on a MOVING page (R437) -/
  waiting  : Bool := false
  pagesT   : List Nat := []
  hframesT : List Nat := []
  qframesT : List Nat := []
  seqsT    : List Nat := []
  nodesT   : List Nat := []
  pins     : Map (List PinnedPage) := []
  /-- frames that return to their free set when no pin names them (R446): tier and frame -/
  deferred : List (Bool × Nat) := []
  moves    : List Move := []
  nhit     : W64 := 0
  nmiss    : W64 := 0
  /-- nodes in the node cache, most recent first (R431) -/
  ncache   : List Nat := []
deriving DecidableEq, Repr

/-- A work record (R457). -/
structure WorkRec where
  words : List W64
deriving DecidableEq, Repr

/-- A work queue (R454, R455, R478, R479). -/
structure Queue where
  conf  : Bool := false
  base  : Nat := 0
  logn  : Nat := 0
  prio  : Nat := 0
  age   : Nat := 0
  en    : Bool := false
  supok : Bool := false
  head  : W32 := 0
  tail  : W32 := 0
  rejc  : W32 := 0
  latec : W32 := 0
  parkw : Bool := false
  pages : List PageTr := []
  /-- the admitted head record and the time of its admission (R459, R461) -/
  adm   : Option (WorkRec × Nat) := none
deriving DecidableEq, Repr

/-- A task from its selection on. -/
structure Task where
  key      : Nat
  rec_     : WorkRec
  queue    : Nat
  level    : Nat := 0
  /-- time at which it became a candidate (R461) -/
  since    : Nat := 0
  tbind    : Nat := 0
  parts    : List Nat := []
  presses  : List Nat := []
  reported : List Nat := []
  disc     : Bool := false
  /-- presses that have been reset after a slot of the task went to HALT (R474) -/
  wiped    : List Nat := []
  /-- slots of a pre-empted task that hold a saved context: core and slot -/
  saved    : List (Nat × Nat) := []
deriving DecidableEq, Repr

/-- The distributor (16_distributor.md). -/
structure Dist where
  queues    : Map Queue := []
  selected  : Option Task := none
  /-- the selected task was already bound once and awaits restore (R477) -/
  restoring : Bool := false
  /-- queue selected last at each level, plus one (R462) -/
  rr        : Map Nat := []
  /-- parked-task table (R470): entry to task -/
  parked    : Map Task := []
  /-- entries whose task is ready, in the order in which they became ready (R472) -/
  ready     : List Nat := []
  /-- run lists by home core (R472) and the order of joining -/
  runLists  : Map (List (Nat × Task)) := []
  joins     : Nat := 0
  bound     : List Task := []
  preempted : List Task := []
  /-- bound tasks whose pre-emption is under way (R476) -/
  stopping  : List Nat := []
  /-- a halted slot of a bound task (R474): task key and core -/
  halted    : List (Nat × Nat) := []
  nextKey   : Nat := 0
deriving DecidableEq, Repr

/-- BOOTST (R485). -/
inductive BootState where
  | wait | check | ready | fail
deriving DecidableEq, Repr

/-- Soft-error count of a unit in its window (R494). -/
structure ErrCount where
  unit  : ErrUnit
  count : Nat
  start : Nat
  pages : List Nat
  /-- the threshold has been reached in this window -/
  hit   : Bool := false
deriving DecidableEq, Repr

/-- An entry of MCLOG (R495) and whether a master has read it. -/
structure LogRecord where
  time  : W64
  word1 : W64
  word2 : W64
  word3 : W64
  read  : Bool
deriving DecidableEq, Repr

/-- An INVVA not acknowledged yet (R23, R485): the virtual page, the cycle in which V cleared, and the accesses that were in flight
then: posted stores, loads that wait for a line (unit, slot, address), lines that PREF has requested (unit, request), stores and
atomics that wait with their handle. -/
structure Inval where
  va     : Nat
  size   : Nat
  cycle  : Nat
  posted : List Posted
  loads  : List (Nat × Nat × Nat)
  prefs  : List (Nat × Nat)
  stores : List (Nat × Nat × Handle)
deriving DecidableEq, Repr

/-- Management controller (17_device.md). -/
structure Mgmt where
  owner    : Nat := 0
  expert   : Bool := false
  epoch    : BitVec 16 := 0
  bootst   : BootState := .wait
  bootFail : BitVec 5 := 0
  policy   : Bool := false
  fwLen    : Nat := 0
  devnum   : BitVec 9 := 0
  ptroot   : W64 := 0
  inval    : Option Inval := none
  run      : Bool := false
  plim     : Nat := 3200
  denyHost : Nat := 0
  denyBoard : Nat := 0
  denyFab  : Nat := 0
  bar2base : W64 := 0
  hdm      : Map (W64 × W64) := []
  mclog    : Map LogRecord := []
  mchead   : BitVec 8 := 0
  lost     : W32 := 0
  /-- clock steps below 940 MHz: 0, 1 (705 MHz), 2 (470 MHz) (R483) -/
  clock    : Nat := 0
  errs     : List ErrCount := []
  /-- window in nanoseconds and threshold of a pseudo-channel, a scratchpad bank, a core, a press and a link (R494) -/
  errWindows    : List Nat := [1000000000, 1000000000, 1000000000, 1000000000, 1000000]
  errThresholds : List Nat := [64, 16, 16, 16, 1024]
  /-- time since which power and temperature have allowed a faster clock (R484) -/
  coolSince : Option Nat := none
  remCores : List Nat := []
  remPress : List Nat := []
  remClusters : List Nat := []
  retrains : Map (List Nat) := []
  tripped  : Bool := false
deriving DecidableEq, Repr

/-- What leaves the device: an output. -/
inductive OutMsg where
  /-- a request or posted store sent to another device -/
  | request (dev : Nat) (r : RemoteRequest)
  /-- the answer to another device's request -/
  | reply (dev : Nat) (r : RemoteReply)
  /-- the doubleword that a master reads from BAR0 -/
  | register (m : Master) (v : W64)
  /-- the data of a host read through BAR2 -/
  | hostRead (data : List Byte)
  /-- the answer to a back-invalidate snoop: the line, and its data where it was dirty (R80) -/
  | snooped (line : Nat) (data : Option (BitVec 512))
  /-- a contribution to an all-reduce -/
  | contribute (group inst : Nat) (c : Contribution)
deriving DecidableEq, Repr

/-- Whose turn it is. -/
inductive Turn where
  /-- a strand or lookup core selects a slot and runs its instruction -/
  | unit (u : Nat)
  /-- a press takes its next step -/
  | press (p : Nat)
  /-- an event of the opcode table -/
  | event (i : Instr)
  /-- nothing but time: this many cycles pass -/
  | tick (n : Nat)
  /-- an access of a master that no row of the opcode table describes -/
  | access (m : Master) (a : Access)
  /-- the pool device has cleared the poison of a granule (R498) -/
  | poolCleared (granule : Nat)
deriving DecidableEq, Repr

/-- The machine. -/
structure State where
  /-- cycles since reset, and the device time base in 1/141 ns -/
  cycle    : Nat := 0
  time141  : Nat := 0
  /-- whose turns come next; inputs of the machine -/
  agenda   : List Turn := []
  /-- the slot whose instruction runs, and the press whose instruction runs -/
  cur      : Nat := 0
  slot     : Nat := 0
  press    : Nat := 0
  mem      : List Host.Cell := []
  /-- granules in error, as memory keys divided by 8, rising (R498) -/
  poison   : List Nat := []
  cores    : Map Core := []
  clusters : Map Cluster := []
  presses  : Map Press := []
  posted   : List Posted := []
  replicas : Map (BitVec 16) := []
  pool     : Map PoolLine := []
  clocks   : Map W64 := []
  fibre    : Map (Map FibreLine) := []
  fabric   : Fabric := {}
  splice   : Splice := {}
  dist     : Dist := {}
  mgmt     : Mgmt := {}
  outbox   : List OutMsg := []
  /-- the model's own counters: order of waiters and uses, and the count of free values taken -/
  ticket   : Nat := 0
  freeCtr  : Nat := 0
  /-- plane contents that MU.SAVE has written into images: P0 and P1, 256 rows each (R325) -/
  vault    : List (List (BitVec 4096)) := []
deriving DecidableEq, Repr

/-- The machine right after a cold reset (R496): every field at its reset value, every engine held in reset. -/
def State.reset : State := {}

end Sys2Proof.Machine
end

