-- ==== Sys2Proof/Machine/Table.lean ====
section
/-! DEFINITION. Tables keyed by numbers, byte order and bit fields: the plain-data helpers of every other file. -/
namespace Sys2Proof.Machine

/-- The entry of key `k`; an unlisted key has the value `d`. -/
def mget {α : Type} (d : α) : Map α → Nat → α
  | [], _ => d
  | (k', v) :: m, k => if k' = k then v else mget d m k

/-- The table without key `k`. -/
def merase {α : Type} : Map α → Nat → Map α
  | [], _ => []
  | (k', v) :: m, k => if k' = k then merase m k else (k', v) :: merase m k

/-- The table with an entry placed before the first larger key. -/
def mins {α : Type} : Map α → Nat → α → Map α
  | [], k, v => [(k, v)]
  | (k', v') :: m, k, v => if k < k' then (k, v) :: (k', v') :: m else (k', v') :: mins m k v

/-- The table in which `k` has the value `v`; the value `d` of unlisted keys is not listed. -/
def mset {α : Type} [DecidableEq α] (d : α) (m : Map α) (k : Nat) (v : α) : Map α :=
  if v = d then merase m k else mins (merase m k) k v

/-- The table after `f` at one key. -/
def mupd {α : Type} [DecidableEq α] (d : α) (m : Map α) (k : Nat) (f : α → α) : Map α := mset d m k (f (mget d m k))

/-- The canonical form: keys strictly rising, no entry equal to the unlisted value. -/
def mwf {α : Type} [DecidableEq α] (d : α) : Map α → Bool
  | [] => true
  | (k, v) :: m => decide (v ≠ d) && m.all (fun e => decide (k < e.1)) && mwf d m

/-- The table without the keys from `a` up to `a + n`. -/
def mcut {α : Type} (m : Map α) (a n : Nat) : Map α := m.filter (fun e => decide (e.1 < a) || decide (a + n ≤ e.1))

/-- Element `i` of a list, `d` outside. -/
def nth {α : Type} (d : α) : List α → Nat → α
  | [], _ => d
  | x :: _, 0 => x
  | _ :: xs, n + 1 => nth d xs n

/-- The list with element `i` replaced. -/
def setNth {α : Type} : List α → Nat → α → List α
  | [], _, _ => []
  | _ :: xs, 0, v => v :: xs
  | x :: xs, n + 1, v => x :: setNth xs n v

/-- The list without its element `i`. -/
def dropNth {α : Type} : List α → Nat → List α
  | [], _ => []
  | _ :: xs, 0 => xs
  | x :: xs, n + 1 => x :: dropNth xs n

/-- Position of the first element that satisfies `p`. -/
def findIdx {α : Type} (p : α → Bool) : List α → Option Nat
  | [] => none
  | x :: xs => if p x then some 0 else (findIdx p xs).map (· + 1)

/-- The smallest number below `n` that satisfies `p`. -/
def lowest (n : Nat) (p : Nat → Bool) : Option Nat := (List.range n).find? p

/-! ### Byte order (R7) -/

/-- The number that bytes name, least significant first. -/
def leNat : List Byte → Nat
  | [] => 0
  | b :: bs => b.toNat + 256 * leNat bs

/-- The low `n` bytes of a number, least significant first. -/
def leBytes : Nat → Nat → List Byte
  | 0, _ => []
  | n + 1, v => BitVec.ofNat 8 v :: leBytes n (v / 256)

/-- `n` bytes from address `a` upward. -/
def readBytes (m : List Host.Cell) (a n : Nat) : List Byte := (List.range n).map (fun i => mget 0 m (a + i))

/-- Bytes written from address `a` upward. -/
def writeBytes (m : List Host.Cell) (a : Nat) : List Byte → List Host.Cell
  | [] => m
  | b :: bs => writeBytes (mset 0 m a b) (a + 1) bs

/-- Lists cut into pieces of `n`. -/
def chunksN {α : Type} (n : Nat) : Nat → List α → List (List α)
  | 0, _ => []
  | k + 1, xs => xs.take n :: chunksN n k (xs.drop n)

/-! ### Bit fields -/

/-- `n` bits of a number from bit `lo` upward. -/
def nf (v lo n : Nat) : Nat := v / 2 ^ lo % 2 ^ n

/-- One bit of a number. -/
def nb (v i : Nat) : Bool := v / 2 ^ i % 2 = 1

def b2n (b : Bool) : Nat := if b then 1 else 0

/-- The signed value of an `n`-bit field. -/
def sfield (n v : Nat) : Int := if v % 2 ^ n < 2 ^ (n - 1) then (v % 2 ^ n : Nat) else (v % 2 ^ n : Nat) - (2 ^ n : Int)

/-- The low `n` bits of an integer as a number. -/
def wrapN (n : Nat) (v : Int) : Nat := (v % (2 ^ n : Int)).toNat

def sx {n : Nat} (v : BitVec n) : W64 := v.signExtend 64
def zx {n : Nat} (v : BitVec n) : W64 := v.zeroExtend 64
def w64 (v : Nat) : W64 := BitVec.ofNat 64 v
def w32 (v : Nat) : W32 := BitVec.ofNat 32 v

/-- The number of one bits among the lowest `n`. -/
def ones (v n : Nat) : Nat := ((List.range n).filter (fun i => nb v i)).length

/-- Positions of the one bits among the lowest `n`, rising. -/
def onesAt (v n : Nat) : List Nat := (List.range n).filter (fun i => nb v i)

/-- The number whose bit `i` is `f i` for `i` below `n`. -/
def bitsOf (n : Nat) (f : Nat → Bool) : Nat := (List.range n).foldl (fun acc i => acc + (if f i then 2 ^ i else 0)) 0

end Sys2Proof.Machine
end

