-- ==== Sys2Proof/Machine/Ops.lean ====
section
/-! DEFINITION. The shared operations of the machine: places in memory, registers, privilege, trap entry, double traps,
page-fault parking and return (R141 to R175), machine-check records (R495), clocks (R58). -/
namespace Sys2Proof.Machine

abbrev Out := Host.Outcome State Fault Refusal

/-! ### Places in memory -/

/-- Keys of State.mem: a physical address is its own key. -/
def localBase (u : Nat) : Nat := 2 ^ 56 + u * 0x10000
/-- The store of lookup core `l` (R377). -/
def storeBase (l : Nat) : Nat := 2 ^ 57 + l * 0x8000
/-- The scratchpad of a cluster (R2). -/
def padBase (cl : Nat) : Nat := 2 ^ 58 + cl * 0x600000
/-- The instruction memory of a press (R294). -/
def imemBase (p : Nat) : Nat := 2 ^ 59 + p * 0x10000
/-- Planes (R294), for errors alone: 512 bytes stand for a row. -/
def planeKey (p pl r : Nat) : Nat := 2 ^ 61 + ((2 * p + pl) * 256 + r) * 512
/-- The firmware staging area (R485). -/
def stagingBase : Nat := 2 ^ 60
/-- Buffer `b` of a cluster (R20). -/
def bufBase (cl b : Nat) : Nat := padBase cl + b * 0x4000

/-- A lookup unit (R58). -/
def isLookup (u : Nat) : Bool := decide (1536 ≤ u)

/-- The memory that a unit reaches by offset: local memory (R13), or a lookup core's store (R377). -/
def ownBase (u : Nat) : Nat := if isLookup u then storeBase (u - 1536) else localBase u

/-- Its size in bytes (R13, R378). -/
def ownSize (u : Nat) : Nat := if isLookup u then 0x8000 else 0x10000

/-- End of HBM4 in the physical address space (R486). -/
def hbmEnd : Nat := 0xB2D05E0000

/-- Ends of the physical addresses of the pool: 16 TiB from 16 TiB upward (R2, R424, R486). -/
def poolStart : Nat := 0x100000000000
def poolEnd : Nat := 0x200000000000

/-- HDM decoder `d` is enabled and its range holds the address (R485). -/
def hdmHas (m : Map (W64 × W64)) (a : Nat) (d : Nat) : Bool :=
  let e := mget (0, 0) m d
  let base := nf e.1.toNat 28 24 * 2 ^ 28
  nb e.1.toNat 0 && decide (base ≤ a) && decide (a < base + nf e.2.toNat 28 24 * 2 ^ 28) && decide (poolStart ≤ a)
    && decide (a < poolEnd)

/-- A pool address inside an enabled range (R486). -/
def State.isPool (s : State) (a : Nat) : Bool := (List.range 16).any (hdmHas s.mgmt.hdm a)

/-- An address that R486 maps. -/
def State.mapped (s : State) (a : Nat) : Bool := decide (a < hbmEnd) || s.isPool a

/-- `n` bytes at a key. -/
def State.bytesAt (s : State) (a n : Nat) : List Byte := readBytes s.mem a n

/-- The number in `n` bytes at a key. -/
def State.numAt (s : State) (a n : Nat) : Nat := leNat (s.bytesAt a n)

/-- Granules that a range covers in whole: first and number (R48, R498). -/
def granules (a n : Nat) : Nat × Nat := ((a + 7) / 8, (a + n) / 8 - (a + 7) / 8)

/-- Bytes written at a key; granules written whole are clean again, but for pool memory, which its own device clears (R498). -/
def State.put (s : State) (a : Nat) (bs : List Byte) : State :=
  let g := granules a bs.length
  { s with
    mem := writeBytes s.mem a bs
    poison := s.poison.filter (fun x => decide (x < g.1) || decide (g.1 + g.2 ≤ x) || s.isPool (8 * x)) }

/-- The low `n` bytes of a number written at a key. -/
def State.putNum (s : State) (a n v : Nat) : State := s.put a (leBytes n v)

/-- A range zeroed (R29, R467). -/
def State.zero (s : State) (a n : Nat) : State :=
  let g := granules a n
  { s with mem := mcut s.mem a n, poison := s.poison.filter (fun x => decide (x < g.1) || decide (g.1 + g.2 ≤ x)) }

/-- A pool access while Port B is down, or a granule of the range in error (R424, R498). -/
def State.bad (s : State) (a n : Nat) : Bool :=
  s.poison.any (fun x => decide (a < 8 * x + 8) && decide (8 * x < a + n))
  || (s.isPool a && decide (s.fabric.portB = 0))

/-- A rising list of numbers with one more. -/
def insertRising (g : Nat) : List Nat → List Nat
  | [] => [g]
  | x :: xs => if g < x then g :: x :: xs else if g = x then x :: xs else x :: insertRising g xs

/-- A granule becomes bad (R498). -/
def State.poisonAt (s : State) (g : Nat) : State :=
  { s with poison := insertRising g s.poison }

/-! ### Units, slots and banks (R141) -/

def State.core (s : State) (u : Nat) : Core := mget {} s.cores u
def State.setCore (s : State) (u : Nat) (c : Core) : State := { s with cores := mset {} s.cores u c }
def State.updCore (s : State) (u : Nat) (f : Core → Core) : State := s.setCore u (f (s.core u))

def State.slotOf (s : State) (u i : Nat) : Slot := mget {} (s.core u).slots i
def State.setSlot (s : State) (u i : Nat) (x : Slot) : State :=
  s.updCore u (fun c => { c with slots := mset {} c.slots i x })
def State.updSlot (s : State) (u i : Nat) (f : Slot → Slot) : State := s.setSlot u i (f (s.slotOf u i))

/-- The slot whose instruction runs. -/
def State.me (s : State) : Slot := s.slotOf s.cur s.slot
def State.updMe (s : State) (f : Slot → Slot) : State := s.updSlot s.cur s.slot f

/-- The bank that SLOTST.BANK names. -/
def Slot.active (x : Slot) : Bank := if x.bank then x.b1 else x.b0
def Slot.other (x : Slot) : Bank := if x.bank then x.b0 else x.b1
def Slot.updActive (x : Slot) (f : Bank → Bank) : Slot := if x.bank then { x with b1 := f x.b1 } else { x with b0 := f x.b0 }
def Slot.updOther (x : Slot) (f : Bank → Bank) : Slot := if x.bank then { x with b0 := f x.b0 } else { x with b1 := f x.b1 }

def State.bk (s : State) : Bank := s.me.active
def State.updBk (s : State) (f : Bank → Bank) : State := s.updMe (fun x => x.updActive f)

/-- A general register; g0 reads as zero (R141). -/
def Bank.readG (b : Bank) (r : GReg) : W64 := if r = 0 then 0 else mget 0 b.g r.toNat
/-- A write to g0 is discarded (R141). -/
def Bank.writeG (b : Bank) (r : GReg) (v : W64) : Bank := if r = 0 then b else { b with g := mset 0 b.g r.toNat v }

def State.readG (s : State) (r : GReg) : W64 := s.bk.readG r
def State.writeG (s : State) (r : GReg) (v : W64) : State := s.updBk (fun b => b.writeG r v)

def State.readK (s : State) (k : KReg) : Bool := s.bk.k.getLsbD k.toNat
/-- A byte with bit `i` replaced. -/
def setBit8 (v : BitVec 8) (i : Nat) (x : Bool) : BitVec 8 :=
  if x then v ||| (1#8 <<< i) else v &&& ~~~(1#8 <<< i)
def State.writeK (s : State) (k : KReg) (v : Bool) : State := s.updBk (fun b => { b with k := setBit8 b.k k.toNat v })

def State.readH (s : State) (h : HReg) : Handle := mget {} s.bk.h h.toNat
def State.writeH (s : State) (h : HReg) (v : Handle) : State := s.updBk (fun b => { b with h := mset {} b.h h.toNat v })

/-- The PC of the active bank. -/
def State.pc (s : State) : BitVec 16 := s.bk.pc

/-- ESTAT.PRIV of the active bank (R164). -/
def State.super (s : State) : Bool := s.bk.estat.getLsbD 0

/-- The instruction word that the slot has selected: the head of its fetch buffer (R151). -/
def State.word (s : State) : W32 := s.me.fetch.headD 0

/-! ### Clocks (R58) -/

def State.clockOf (s : State) (u : Nat) : W64 := mget 0 s.clocks u
def State.setClock (s : State) (u : Nat) (v : W64) : State := { s with clocks := mset 0 s.clocks u v }
def maxW (a b : W64) : W64 := if a < b then b else a
/-- Clock key of a home slice. -/
def sliceKey (a : Nat) : Nat := 2000 + Config.homeSlice (a / 64) % 16
/-- A message from one unit to another carries the clock of its sender (R58). -/
def State.tell (s : State) (src dst : Nat) : State := s.setClock dst (maxW (s.clockOf dst) (s.clockOf src))
/-- A request and its answer. -/
def State.exchange (s : State) (u v : Nat) : State := (s.tell u v).tell v u
/-- The timestamp of a seq_cst atomic, written into both clocks (R58). -/
def State.stamp (s : State) (u v : Nat) : State :=
  let t := maxW (s.clockOf u) (s.clockOf v) + 1
  (s.setClock u t).setClock v t

/-- The next number of the model's own order of waiters and uses. -/
def State.bump (s : State) : State := { s with ticket := s.ticket + 1 }

/-- The device time base in nanoseconds (R9). -/
def State.time (s : State) : W64 := w64 (s.time141 / 141)

/-! ### Machine-check records (R495) -/

/-- A record in slot MCHEAD, which advances; a record overwritten unread counts as lost. `n` is the model's number of the
event: 0x16 is the double trap, whose kind is its code of R167. -/
def State.machineCheck (s : State) (n unit : Nat) (detail : List Nat) : State :=
  let m := s.mgmt
  let i := m.mchead.toNat
  let old := mget ⟨0, 0, 0, 0, true⟩ m.mclog i
  let kind := if n = 0x16 then 0x16 else (Config.recordKind n).toNat
  let d := Config.recordDetail n detail
  { s with mgmt := { m with
      mclog := mins (merase m.mclog i) i
        ⟨s.time, w64 (kind + unit % 2 ^ 24 * 256), d.extractLsb' 0 64, d.extractLsb' 64 64, false⟩
      mchead := m.mchead + 1
      lost := if old.read then m.lost else m.lost + 1 } }

/-- A dropped write is counted in its master's DENYC field, which holds at 0xFFFF (R485). -/
def sat16 (n : Nat) : Nat := if n < 0xFFFF then n + 1 else n
def State.deny (s : State) (m : Master) : State :=
  match m with
  | .host => { s with mgmt := { s.mgmt with denyHost := sat16 s.mgmt.denyHost } }
  | .board => { s with mgmt := { s.mgmt with denyBoard := sat16 s.mgmt.denyBoard } }
  | .fabric => { s with mgmt := { s.mgmt with denyFab := sat16 s.mgmt.denyFab } }

/-! ### Traps (R167 to R171) -/

/-- A cause of R167 with the fields of ECAUSE and EVAL. -/
structure Trap where
  code : Nat
  eval : W64 := 0
  reg  : Nat := 0
  wr   : Bool := false
deriving DecidableEq, Repr

/-- ECAUSE (R165). -/
def Trap.ecause (t : Trap) : W32 := w32 (t.code + t.reg % 32 * 256 + b2n t.wr * 0x2000)

/-- ESTAT.IN (R164). -/
def Bank.inTrap (b : Bank) : Bool := b.estat.getLsbD 2

/-- PPRIV := PRIV, PRIV := 1, IN := 1 (R169). -/
def Bank.enterStat (b : Bank) : W32 := (if b.estat.getLsbD 0 then 7#32 else 5#32)

/-- A double trap: the slot halts, both banks keep their registers, a record goes to the management controller and the
distributor ends the task (R171; layout of the detail: log entry 16). -/
def State.doubleTrap (s : State) (t : Trap) : State :=
  let u := s.cur
  let b := s.bk
  let s1 := s.updMe (fun x => { x with st := .halt, wait := .none, drained := false, clearedLine := none, latched := none })
  let s2 := s1.machineCheck 0x16 u [u, s.slot, b2n s.me.bank, b.ecause.toNat, t.ecause.toNat]
  match (s.core u).task with
  | some k => { s2 with dist := { s2.dist with halted := s2.dist.halted ++ [(k, u)] } }
  | none => s2

/-- Trap entry for every cause other than page (R169); `epc` is what EPC takes. -/
def State.trapEntry (s : State) (t : Trap) (epc : W32) : State :=
  if s.bk.inTrap then s.doubleTrap t
  else s.updMe (fun x => { x.updActive (fun b =>
      { b with ecause := t.ecause, eval := t.eval, epc := epc, estat := b.enterStat, pc := b.evec.truncate 16 }) with
    fetch := [], readyAt := s.cycle + 2, drained := false, clearedLine := none, latched := none, wait := .none, st := .run })

/-- A trap whose EPC is the instruction (R167). -/
def State.trap (s : State) (t : Trap) : State := s.trapEntry t (s.pc.zeroExtend 32)

/-- Page-fault parking (R173): bank 0 parks at its XLAT and bank 1 starts at PFVEC. -/
def State.pageFault (s : State) (va : W64) (h : HReg) (w : Bool) : State :=
  if s.me.bank then s.doubleTrap { code := 0x13, eval := va, wr := w }
  else s.updMe (fun x =>
    let b := ((x.b1.writeG 2 va).writeG 3 (w64 (h.toNat + b2n w * 16))).writeG 4 (zx x.b0.pc)
    { x with
      pfp := true, bank := true, fetch := [], readyAt := s.cycle + 50
      b1 := { b with estat := (b.estat ||| 1) &&& ~~~4#32, pc := x.pfvec.truncate 16 } })

/-! ### Ends of a strand instruction -/

/-- How an instruction of a slot ends. -/
inductive Done where
  /-- it completes: the state it leaves and its latency L (R139) -/
  | ok (s : State) (lat : Nat)
  /-- it completes, and its slot is in WAIT for its whole L (R275, R427) -/
  | okWait (s : State) (lat : Nat)
  /-- it completes and transfers control (R152) -/
  | jump (s : State) (pc : BitVec 16)
  /-- it traps and has no effect (R168) -/
  | trap (t : Trap)
  /-- it traps, and something outside the strand has changed -/
  | trapIn (s : State) (t : Trap)
  /-- it waits: it stays at its PC -/
  | stay (s : State)
  /-- the state as given, PC and readiness included -/
  | same (s : State)
  | fault (f : Fault)

/-- The instruction after the one that has completed follows (R139). -/
def State.retire (s : State) (lat : Nat) : State :=
  s.updMe (fun x => { x.updActive (fun b => { b with pc := b.pc + 4 }) with
    fetch := x.fetch.tail, readyAt := s.cycle + lat, drained := false, clearedLine := none, latched := none, wait := .none, st := .run })

/-- Control moves to another word; the fetch buffer is emptied (R152). -/
def State.moveTo (s : State) (pc : BitVec 16) : State :=
  s.updMe (fun x => { x.updActive (fun b => { b with pc := pc }) with
    fetch := [], readyAt := s.cycle + 5, drained := false, clearedLine := none, latched := none, wait := .none, st := .run })

/-- An instruction that keeps its slot in WAIT until its L is over. -/
def State.retireWait (s : State) (lat : Nat) : State :=
  (s.retire lat).updMe (fun x => { x with st := .wait, wait := .creating })

def finish (s : State) : Done → Out
  | .ok t lat => .next (t.retire lat)
  | .okWait t lat => .next (t.retireWait lat)
  | .jump t pc => .next (t.moveTo pc)
  | .trap t => .next (s.trap t)
  | .trapIn t c => .next (t.trap c)
  | .stay t => .next t
  | .same t => .next t
  | .fault f => .fault f

/-- The illegal-instruction trap; EVAL is the word (R188). -/
def State.illegal (s : State) : Trap := { code := 0x02, eval := zx s.word }
/-- The privilege trap (R162). -/
def State.privilege (s : State) : Trap := { code := 0x03, eval := zx s.word }
/-- The engine-command trap (R187). -/
def State.command (s : State) : Trap := { code := 0x11, eval := zx s.word }

/-- The fetch fault of an instruction at 0xFFFC whose next PC or return point would be 0x1_0000 (R153). -/
def State.atEnd (s : State) (d : Done) : Done :=
  if s.pc = 0xFFFC then .trap { code := 0x01, eval := 0x10000 } else d

/-- An instruction of strand slots and lookup slots that does not transfer control. -/
def onBoth (s : State) (d : Done) : Out := finish s (s.atEnd d)
/-- An instruction that a lookup slot does not have (R379, R381). -/
def onStrand (s : State) (d : Done) : Out := finish s (if isLookup s.cur then .trap s.illegal else s.atEnd d)
/-- An instruction that only a lookup slot has (R381). -/
def onLookup (s : State) (d : Done) : Out := finish s (if isLookup s.cur then s.atEnd d else .trap s.illegal)
/-- A control transfer of both kinds of slot (R153). -/
def transfer (s : State) (d : Done) : Out := finish s d
/-- A control transfer that a lookup slot does not have. -/
def transferStrand (s : State) (d : Done) : Out := finish s (if isLookup s.cur then .trap s.illegal else d)

/-- An instruction that requires SUPER (R162). -/
def State.needSuper (s : State) (d : Done) : Done := if s.super then d else .trap s.privilege

/-- An instruction that waits keeps what it has latched (R23, R274). -/
def Done.holding (l : Latch) : Done → Done
  | .stay t => .stay (t.updMe (fun x => { x with latched := some l }))
  | d => d

/-- The handle of an access: the one with which it was issued, where it has waited (R23). -/
def State.useH (s : State) (h : HReg) : Handle :=
  match s.me.latched with
  | some (.handle x) => x
  | _ => s.readH h

/-- A command has latched its registers and waits no more. -/
def State.resumed (s : State) : Bool :=
  match s.me.latched with
  | some (.command ..) => true
  | _ => false

/-- The registers of a command: those latched at its issue, where it has waited (R274, R405). -/
def State.latchedRegs (s : State) (regs : Map W64) : Map W64 :=
  match s.me.latched with
  | some (.command r _ _ _) => r
  | _ => regs

/-- The slot waits for an outside event (R142). -/
def State.parkFor (s : State) (w : Wait) (st : SlotState) : State := s.updMe (fun x => { x with wait := w, st := st })

/-- A load miss or an access to another device waits for its value: its L is at least 8 cycles from its selection (R139). -/
def State.awaits (s : State) (w : Wait) : State :=
  s.updMe (fun x => { x with wait := w, st := .run, readyAt := s.cycle + 8 })

/-- What is left of the L of an access whose value arrives in this cycle (R139). -/
def State.restL (s : State) : Nat := max 1 (s.me.readyAt - s.cycle)

/-- Write a value and retire. -/
def State.gives (s : State) (d : GReg) (v : W64) (lat : Nat) : Done := .ok (s.writeG d v) lat

/-! ### Scopes, releases and acquires (R14, R62, R63, R67, R380) -/

/-- The scope that an instruction of this unit uses: a lookup slot is in no CORE or CLUSTER scope (R14). -/
def scopeOn (u : Nat) (sc : Scope) : Scope := if isLookup u && decide (sc.code < 3) then .stack else sc

/-- A scope wider than CORE. -/
def wideScope (sc : Scope) : Bool := decide (2 ≤ sc.code)

/-- The slot's own posted stores that are not acknowledged yet (R62, R66). -/
def State.pending (s : State) : Bool := s.posted.any (fun p => p.unit == s.cur && p.slot == s.slot)

def FifoEntry.isLine : FifoEntry → Bool
  | .line _ => true
  | .marker _ => false

/-- Nothing that a release of this slot waits for is outstanding (R62, R67). -/
def State.clean (s : State) : Bool := !s.pending && !((s.core s.cur).fifo.any FifoEntry.isLine)

/-- The release of the instruction at PC puts a marker into the FIFO and waits (R62). -/
def State.startRelease (s : State) : State :=
  if (match s.me.wait with | .release => true | _ => false) then s
  else (s.updCore s.cur (fun c => { c with fifo := c.fifo ++ [.marker s.slot] })).parkFor .release .run

/-- An instruction that releases at `sc` before its own effect `k`. A store to another device that was dropped is reported by
the next release at DOMAIN scope (R404). -/
def State.releasing (s : State) (sc : Scope) (k : State → Done) : Done :=
  match (if sc = .domain then s.me.linkDrop else none) with
  | some dev => .trapIn (s.updMe (fun x => { x with linkDrop := none })) { code := 0x14, eval := w64 dev }
  | none => if wideScope (scopeOn s.cur sc) && !s.me.drained && !s.clean then .stay s.startRelease else k s

/-- Each byte mask of the 64 bytes of a line, as a mask of its bits. -/
def spread (m : BitVec 64) : BitVec 512 :=
  BitVec.ofNat 512 ((List.range 64).foldl (fun acc i => acc + (if m.getLsbD i then 255 * 2 ^ (8 * i) else 0)) 0)

/-- What an acquire leaves of a line: nothing of a clean line, the core's own stores of a dirty one (R63; log entry 18). -/
def acquireLine (e : Nat × Line) : Option (Nat × Line) :=
  if e.2.dirty = 0 then none else some (e.1, { e.2 with valid := e.2.dirty })

/-- An acquire at a scope (R63, R380). -/
def State.acquire (s : State) (u i : Nat) (sc : Scope) : State :=
  if wideScope (scopeOn u sc) then
    if isLookup u then (s.bump).updSlot u i (fun x => { x with acqMark := s.ticket + 1 })
    else s.updCore u (fun c => { c with l1 := c.l1.filterMap acquireLine })
  else s

/-- Extra cycles of an acquire (R64). -/
def acqCost (u : Nat) (sc : Scope) : Nat := if wideScope sc && !isLookup u then 2 else 0

end Sys2Proof.Machine
end

