-- ==== Sys2Proof/Machine/Operands.lean ====
section
/-! DEFINITION. Operand forms: unit numbers and mesh distances (R3 to R5, R234), mesh addresses (R16 to R18, R233), handles and
page tables (R21 to R23, R228, R230, R492), tile handles and addresses (R24, R25, R244, R245), and the paths to memory: posted
stores (R66), the L1 (R148, R149, R231), the homes (R65, R77, R79 to R81). -/
namespace Sys2Proof.Machine

/-! ### Numbering -/

/-- The device's own number (R403, R485). -/
def State.devNum (s : State) : Nat := s.mgmt.devnum.toNat % 256

/-- The engines are out of reset and the clocks run (R484, R502). -/
def State.alive (s : State) : Bool := s.mgmt.run && !s.mgmt.tripped

/-- Membership of the device's domain (R403). -/
def State.member (s : State) (d : Nat) : Bool :=
  decide (d = s.devNum) || (nb s.mgmt.devnum.toNat 8 && decide (d < 256) && Config.domainMember d)

/-- No route leads to another device: every link is down or training, or the route was lost (R403, R404, R422). -/
def State.routeless (s : State) (d : Nat) : Bool :=
  s.fabric.noRoute.contains d || !(s.fabric.links.any (fun e => decide (2 ≤ e.2.state)))

def colOf (cl : Nat) : Nat := cl % 12
def rowOf (cl : Nat) : Nat := cl / 12
/-- Stack group of a cluster (R4). -/
def stackOfCluster (cl : Nat) : Nat := 4 * (rowOf cl / 2) + colOf cl / 3
/-- Cluster of a strand core (R5). -/
def clusterOf (u : Nat) : Nat := u / 16
/-- Stack group of a strand core or a lookup core (R4, R58). -/
def stackOf (u : Nat) : Nat := if isLookup u then (u - 1536) / 8 else stackOfCluster (clusterOf u)

def absDiff (a b : Nat) : Nat := (a - b) + (b - a)
/-- H of R234. -/
def hops (a b : Nat) : Nat := absDiff (colOf a) (colOf b) + absDiff (rowOf a) (rowOf b)
/-- C of R234. -/
def crossing (a b : Nat) : Nat := if decide (colOf a < 6) = decide (colOf b < 6) then 0 else 1
/-- The round trip 8 + 4H + 12C between two clusters of the device, 8 within one (R234). -/
def meshTrip (a b : Nat) : Nat := 8 + 4 * hops a b + 12 * crossing a b

/-- The narrowest scope that contains two units (R256, R258, R259). -/
def between (u v : Nat) : Scope :=
  if isLookup u || isLookup v then (if stackOf u = stackOf v then .stack else .device)
  else if u = v then .core else if clusterOf u = clusterOf v then .cluster
  else if stackOf u = stackOf v then .stack else .device

/-! ### Mesh addresses (R16 to R18) -/

/-- What a mesh address resolves to. -/
structure Place where
  dev  : Nat
  cl   : Nat
  tile : Bool
  core : Nat
  off  : Nat
deriving DecidableEq, Repr

/-- Key of the place in State.mem on its own device. -/
def Place.key (p : Place) : Nat := if p.tile then padBase p.cl + p.off else localBase (16 * p.cl + p.core) + p.off
/-- Global core number of a local memory. -/
def Place.unit (p : Place) : Nat := 16 * p.cl + p.core
/-- Buffer of a scratchpad place (R20). -/
def Place.buf (p : Place) : Nat := p.off / 0x4000

/-- The mesh address of a place in the absolute form (R16): what a request to another device names, since the relative form is
resolved where the access is issued (R17). -/
def Place.mesh (p : Place) : W64 :=
  w64 (p.dev / 128 % 2 * 2 ^ 63 + p.dev % 64 * 2 ^ 56 + p.cl / 12 * 2 ^ 52 + p.cl % 12 * 2 ^ 48
    + (if p.tile then 14 else p.core) * 2 ^ 44 + p.dev / 64 % 2 * 2 ^ 43 + b2n p.tile * 2 ^ 40 + p.off)

/-- Column, row and cluster of the unit that issues; a lookup slot reads 0 in both fields (R378; log entry 19). -/
def issuerCol (u : Nat) : Nat := if isLookup u then 0 else colOf (clusterOf u)
def issuerRow (u : Nat) : Nat := if isLookup u then 0 else rowOf (clusterOf u)

/-- Resolution of a mesh address for an access of `n` bytes by unit `u` (R17, R18); none is the mesh-address fault. -/
def State.resolve (s : State) (u : Nat) (ma : W64) (n : Nat) : Option Place :=
  let a := ma.toNat
  let rel := nb a 62
  let dev : Int := if rel then (s.devNum : Int) + sfield 6 (nf a 56 6)
    else (b2n (nb a 63) * 128 + b2n (nb a 43) * 64 + nf a 56 6 : Nat)
  let y : Int := if rel then (issuerRow u : Int) + sfield 4 (nf a 52 4) else (nf a 52 4 : Nat)
  let x : Int := if rel then (issuerCol u : Int) + sfield 4 (nf a 48 4) else (nf a 48 4 : Nat)
  let tile := nb a 40
  let off := nf a 0 32
  if nf a 41 2 ≠ 0 ∨ nf a 32 8 ≠ 0 ∨ (rel ∧ (nb a 63 ∨ nb a 43)) then none
  else if tile ∧ nf a 44 4 ≠ 14 then none
  else if (if tile then 0x600000 else 0x10000) < off + n then none
  else if x < 0 ∨ 11 < x ∨ y < 0 ∨ 7 < y then none
  else if dev < 0 ∨ !(s.member dev.toNat) then none
  else if off % n ≠ 0 then none
  else some { dev := dev.toNat, cl := 12 * y.toNat + x.toNat, tile := tile, core := if tile then 0 else nf a 44 4, off := off }

/-- The tile-closed trap of a store or atomic. -/
def closedAt (v : W64) (d : GReg) : Trap := { code := 0x0C, eval := v, reg := d.toNat, wr := true }

/-- The mesh-address trap (0x05). -/
def meshTrap (ea : W64) (wr : Bool) : Trap := { code := 0x05, eval := ea, wr := wr }

/-- The formed address of R233: OFFSET replaced by ga[31:0] plus the immediate. -/
def formMesh (ga : W64) (i : BitVec 12) : Option W64 :=
  let sum : Int := (nf ga.toNat 0 32 : Nat) + i.toInt
  if sum < 0 ∨ (2 ^ 32 : Int) ≤ sum then none else some (w64 (ga.toNat / 2 ^ 32 * 2 ^ 32 + sum.toNat))

/-- The place of a mesh access with M = 1 (R233). -/
def State.meshPlace (s : State) (ga : W64) (i : BitVec 12) (n : Nat) (wr : Bool) : Except Trap (Place × W64) :=
  match formMesh ga i with
  | none => .error (meshTrap ga wr)
  | some ma => match s.resolve s.cur ma n with
    | none => .error (meshTrap ma wr)
    | some p => .ok (p, ma)

/-- The offset of a local access with M = 0 (R233, R379); the sum is taken modulo 2^64, which R233 leaves open (log entry 92). -/
def State.localOff (s : State) (ga : W64) (i : BitVec 12) (n : Nat) (wr : Bool) : Except Trap Nat :=
  let a := ga + sx i
  if ownSize s.cur < a.toNat + n ∨ a.toNat % n ≠ 0 then .error (meshTrap a wr) else .ok a.toNat

/-- A mesh address that names a core of this device (R256, R259). -/
def State.coreAt (s : State) (ma : W64) : Option Nat :=
  match s.resolve s.cur ma 1 with
  | some p => if p.tile || decide (p.off ≠ 0) then none else if p.dev = s.devNum then some p.unit else none
  | none => none

/-! ### Handles and page tables -/

def PageSize.bytes : PageSize → Nat
  | .p4k => 0x1000 | .p2m => 0x200000 | .p1g => 0x40000000

/-- What a walk of the page tables finds (R492). -/
structure PageInfo where
  base : Nat
  size : PageSize
  pool : Bool
  rd   : Bool
  w    : Bool
  sup  : Bool
deriving DecidableEq, Repr

/-- A walk from the table at `tbl` through the levels whose index starts at the listed bits; level 5 is last (R492). -/
def State.walkFrom (s : State) (va : Nat) : List Nat → Nat → Bool → Bool → Option PageInfo
  | [], _, _, _ => none
  | sh :: rest, tbl, w, sup =>
    let e := s.numAt (tbl + 8 * nf va sh 9) 8
    let leaf := decide (sh = 12) || nb e 3
    let w' := w && nb e 1
    let sup' := sup || nb e 2
    let pa := nf e 12 40 * 2 ^ 12
    if !nb e 0 || decide (nf e 6 6 ≠ 0) || decide (nf e 52 12 ≠ 0) then none
    else if leaf then
      if decide (30 < sh) || decide (pa % 2 ^ sh ≠ 0) then none
      else some { base := pa, size := if sh = 12 then .p4k else if sh = 21 then .p2m else .p1g, pool := nb e 4, rd := nb e 5,
                  w := w', sup := sup' }
    else s.walkFrom va rest pa w' sup'

/-- The page of a virtual address under PTROOT. -/
def State.walk (s : State) (va : Nat) : Option PageInfo := s.walkFrom va [48, 39, 30, 21, 12] s.mgmt.ptroot.toNat true false

/-- Bits [63:57] are copies of bit 56 (R228). -/
def canonical (va : W64) : Bool := decide (sx (va.extractLsb' 0 57) = va)

/-- A page that an engine command may use: present, of the asked permission, not supervisor-only below SUPER (R275). -/
def State.pageFor (s : State) (va : Nat) (w sup : Bool) : Option PageInfo :=
  match s.walk va with
  | some p => if (w && !p.w) || (p.sup && !sup) then none else some p
  | none => none

/-- The offset o of R22 and R230. -/
def offsetOf (ga : W64) (i : BitVec 12) : Int := ga.toInt + i.toInt
def intW (o : Int) : W64 := BitVec.ofInt 64 o

/-- The checks of R230 and R240 on an access of `n` bytes through a handle; `wr` says that it writes. The answer is the
physical address. -/
def handleCheck (hd : Handle) (h : HReg) (o : Int) (n : Nat) (wr : Bool) : Except Trap Nat :=
  let t (c : Nat) (e : W64) : Trap := { code := c, eval := e, reg := h.toNat, wr := wr }
  if o % n ≠ 0 then .error (t 0x06 (hd.vbase + intW o))
  else if !hd.v then .error (t 0x07 hd.vbase)
  else if o < 0 ∨ (hd.span.toNat : Int) < o + n then .error (t 0x08 (intW o))
  else if wr && !hd.w then .error (t 0x09 (intW o))
  else .ok (hd.pbase.toNat + o.toNat)

/-! ### Uncorrectable errors (R494, R498) -/

/-- A list with one more member. -/
def addMem (x : Nat) (l : List Nat) : List Nat := if l.contains x then l else l ++ [x]

/-- The unit that holds a key: a pseudo-channel with its 4 KiB page (log entry 89), a scratchpad bank, which offset bits [10:6] select
(R20), a core, or a press (R494). -/
def unitOfKey (key : Nat) : Option ErrUnit :=
  if key < hbmEnd then some (.hbm (Config.channelOf key) (key / 0x1000))
  else if 2 ^ 56 ≤ key ∧ key < 2 ^ 57 then some (.core ((key - 2 ^ 56) / 0x10000))
  else if 2 ^ 58 ≤ key ∧ key < 2 ^ 59 then
    some (.bank ((key - 2 ^ 58) / 0x600000) ((key - 2 ^ 58) % 0x600000 / 64 % 32))
  else if 2 ^ 59 ≤ key ∧ key < 2 ^ 60 then some (.press ((key - 2 ^ 59) / 0x10000))
  else if 2 ^ 61 ≤ key then some (.press ((key - 2 ^ 61) / 0x40000))
  else none

/-- The unit number of a machine-check record (R495; log entry 16). -/
def unitNumber : ErrUnit → Nat
  | .hbm c _ => c
  | .bank cl _ => cl
  | .core u => u
  | .press p => 1664 + p
  | .link l => l

/-- A lasting fault of a unit of memory, registers or a press (R494). -/
def State.unitLost (s : State) (e : ErrUnit) (pages : List Nat) : State :=
  let m := s.mgmt
  match e with
  | .hbm c _ => s.machineCheck 0x04 c pages
  | .bank cl _ => { s with mgmt := { m with remClusters := addMem cl m.remClusters } }
  | .core u => { s with mgmt := { m with remCores := addMem u m.remCores } }
  | .press p => { s with mgmt := { m with remPress := addMem p m.remPress } }
  | .link _ => s

/-- An uncorrectable error that a read reports: a record that names its unit (R494). -/
def State.memError (s : State) (key : Nat) : State :=
  match unitOfKey key with
  | none => s.machineCheck 0x14 s.cur [key]
  | some e => s.machineCheck 0x14 (unitNumber e) [key]

/-- Reads that have no trap or status of their own still report their errors (R498; log entry 7). -/
def State.report (s : State) (keys : List Nat) : State := keys.foldl State.memError s

/-- The key of a read that meets an error. -/
def State.badKey (s : State) (a n : Nat) : List Nat := if s.bad a n then [a] else []

/-- Entries in error that a walk reads, as keys: the walk of `walkFrom`. -/
def State.walkBad (s : State) (va : Nat) : List Nat → Nat → List Nat
  | [], _ => []
  | sh :: rest, tbl =>
    let a := tbl + 8 * nf va sh 9
    let e := s.numAt a 8
    s.badKey a 8 ++ (if !nb e 0 || decide (nf e 6 6 ≠ 0) || decide (nf e 52 12 ≠ 0) || decide (sh = 12) || nb e 3 then []
      else s.walkBad va rest (nf e 12 40 * 2 ^ 12))

/-- What the walk of a virtual address reports (R492, R498). -/
def State.walked (s : State) (va : Nat) : State := s.report (s.walkBad va [48, 39, 30, 21, 12] s.mgmt.ptroot.toNat)

/-- The memory-error trap of an access of the running slot. -/
def State.errorTrap (s : State) (key : Nat) (t : Trap) : Done := .trapIn (s.memError key) t

/-! ### Posted stores (R66 to R68, R231, R380) -/

/-- A posted store enters the mesh or the path to its slice. -/
def State.post (s : State) (d : PostDest) (a : W64) (bs : List Byte) : State :=
  { s with posted := s.posted ++ [{ unit := s.cur, slot := s.slot, dest := d, addr := a, bytes := bs }] }

/-- A pool line on the device: recency, and the eviction of the least recently used line when the snoop filter is full
(R79, R81). -/
def filterLimit : Nat := 4194304
def poolVictim (m : Map PoolLine) : Option Nat :=
  (m.foldl (fun (acc : Option (Nat × Nat)) e =>
    match acc with
    | some b => if e.2.used < b.2 then some (e.1, e.2.used) else acc
    | none => some (e.1, e.2.used)) none).map (·.1)
def State.touchPool (s : State) (pa : Nat) (dirty : Bool) : State :=
  if !s.isPool pa then s
  else
    let ln := pa / 64
    let held := s.pool.any (fun e => e.1 == ln)
    let m := if held || decide (s.pool.length < filterLimit) then s.pool
      else match poolVictim s.pool with | some v => merase s.pool v | none => s.pool
    { s with pool := mset {} m ln { dirty := (mget {} m ln).dirty || dirty, used := s.ticket + 1 }, ticket := s.ticket + 1 }

/-- A write performed at the home of a physical address. -/
def State.homePut (s : State) (pa : Nat) (bs : List Byte) : State := (s.put pa bs).touchPool pa true

/-- A posted store lands, and its landing is acknowledged (R58, R66, R68, R231). One to another device left this device when it issued; here its landing there is
acknowledged (R62, R67). -/
def State.land (s : State) (p : Posted) : State :=
  match p.dest with
  | .localMem c => s.put (ownBase c + p.addr.toNat) p.bytes
  | .line _ => (s.exchange p.unit (sliceKey p.addr.toNat)).homePut p.addr.toNat p.bytes
  | .device _ _ => s

/-- Two destinations are reached along one path: one local memory (R67), or the lines of one LLC slice (R231). -/
def sameDest : PostDest → PostDest → Bool
  | .line a, .line b => decide (a = b) || decide (Config.homeSlice a % 16 = Config.homeSlice b % 16)
  | a, b => decide (a = b)

def samePath (u : Nat) (d : PostDest) (p : Posted) : Bool := p.unit == u && sameDest d p.dest

/-- An access of unit `u` at a place finds the unit's earlier posted stores there performed (R67, R231). -/
def State.landFor (s : State) (u : Nat) (d : PostDest) : State :=
  (s.posted.filter (samePath u d)).foldl State.land { s with posted := s.posted.filter (fun p => !samePath u d p) }

/-! ### The L1 (R148, R149, R231) -/

/-- `n` byte positions from `off`. -/
def laneMask (off n : Nat) : BitVec 64 := BitVec.ofNat 64 ((2 ^ n - 1) * 2 ^ off)

/-- Bytes of a line that an access needs are there. -/
def Line.has (l : Line) (m : BitVec 64) : Bool := decide (l.valid &&& m = m)

/-- The number in `n` bytes of a line. -/
def Line.read (l : Line) (off n : Nat) : Nat := l.data.toNat / 2 ^ (8 * off) % 2 ^ (8 * n)

/-- The granules of a line for which a condition holds, bit g for granule g. -/
def granuleBits (f : Nat → Bool) : BitVec 8 :=
  BitVec.ofNat 8 ((List.range 8).foldl (fun acc g => if f g then acc + 2 ^ g else acc) 0)

/-- The granules of a line whose bytes are all in a mask. -/
def wholeGranules (m : BitVec 64) : BitVec 8 := granuleBits (fun g => decide (nf m.toNat (8 * g) 8 = 255))

/-- The granules of a line that are in error where memory holds them (R498). -/
def State.badGranules (s : State) (ln : Nat) : BitVec 8 := granuleBits (fun g => s.bad (64 * ln + 8 * g) 8)

/-- Bytes of a line replaced; a granule written whole carries no error (R498). -/
def Line.write (l : Line) (off n v : Nat) : Line :=
  let m := laneMask off n
  { l with
    data := (l.data &&& ~~~ spread m) ||| BitVec.ofNat 512 (v % 2 ^ (8 * n) * 2 ^ (8 * off))
    valid := l.valid ||| m, dirty := l.dirty ||| m, bad := l.bad &&& ~~~ wholeGranules m }

/-- A line as memory holds it, with the errors of its granules; the core's own bytes are kept (R231, log entry 77). -/
def Line.fill (l : Line) (mem : Nat) (bad : BitVec 8) (ro : Bool) : Line :=
  { l with
    data := (l.data &&& spread l.dirty) ||| (BitVec.ofNat 512 mem &&& ~~~ spread l.dirty)
    valid := BitVec.allOnes 64, bad := bad &&& ~~~ wholeGranules l.dirty, filling := false, ro := ro }

def setOf (ln : Nat) : Nat := ln % 64

/-- The least recently used clean way of a set of eight, or a free one: the table with a place for the line, none if every way
is dirty (R149). -/
def makeWay (m : Map Line) (ln : Nat) : Option (Map Line) :=
  let ways := m.filter (fun e => setOf e.1 == setOf ln)
  if ways.length < 8 || m.any (fun e => e.1 == ln) then some m
  else
    let best := (ways.filter (fun e => decide (e.2.dirty = 0))).foldl
      (fun (acc : Option (Nat × Nat)) e =>
        match acc with
        | some b => if e.2.used < b.2 then some (e.1, e.2.used) else acc
        | none => some (e.1, e.2.used)) none
    best.map (fun b => merase m b.1)

/-- The core copies its line back before an atomic and drops it (R65). -/
def writeBackBytes (m : List Host.Cell) (ln : Nat) (l : Line) : List Host.Cell :=
  (List.range 64).foldl (fun acc i =>
    if l.dirty.getLsbD i then mset 0 acc (64 * ln + i) (BitVec.ofNat 8 (l.read i 1)) else acc) m

/-- The dirty bytes of a line go to its home; granules written whole are clean again (R61, R498). -/
def State.copyBack (s : State) (ln : Nat) (l : Line) : State :=
  let whole := (List.range 8).filter (fun g => decide (nf l.dirty.toNat (8 * g) 8 = 255))
  { s with mem := writeBackBytes s.mem ln l, poison := s.poison.filter (fun x => !(whole.contains (x - 8 * ln) && decide (8 * ln ≤ x))) }

def fifoWithout (f : List FifoEntry) (ln : Nat) : List FifoEntry :=
  f.filter (fun e => match e with | .line n => n != ln | .marker _ => true)

def State.dropOwnLine (s : State) (u pa : Nat) : State :=
  let ln := pa / 64
  let c := s.core u
  let l := mget {} c.l1 ln
  (s.copyBack ln l).setCore u { c with l1 := merase c.l1 ln, fifo := fifoWithout c.fifo ln }

/-- A load of a line of a read-duplicated page is served by the slice of the reader's stack: a replica there, or one that it
fetches from the home. It counts as a read at that slice, which takes part in the clocks (R58, R77, R78). -/
def State.replicate (s : State) (pa u : Nat) : State :=
  let here := 2000 + stackOf u
  let held := mget 0 s.replicas (pa / 64)
  if sliceKey pa = here then s.exchange u here
  else if held.getLsbD (stackOf u) then s.exchange u here
  else ({ s.tell u here with replicas := mset 0 s.replicas (pa / 64) (held ||| (1#16 <<< stackOf u)) }.exchange here (sliceKey pa)).tell
    here u

/-- The home slice withdraws the replicas of a line: an invalidation to each slice that holds one, and its answer (R58, R77). -/
def State.withdraw (s : State) (ln : Nat) : State :=
  (onesAt (mget 0 s.replicas ln).toNat 16).foldl (fun t i => t.exchange (sliceKey (64 * ln)) (2000 + i))
    { s with replicas := mset 0 s.replicas ln 0 }

/-! ### Accesses that two lines share (R22, R48; log entry 75) -/

/-- An access of `n` bytes reaches into the next line. -/
def crosses (pa n : Nat) : Bool := decide (64 < pa % 64 + n)
/-- Bytes of it in its first line, and the address of the next one. -/
def firstPart (pa : Nat) : Nat := 64 - pa % 64
def nextLine (pa : Nat) : Nat := 64 * (pa / 64 + 1)

/-- What an access does for each line that it touches, given the address at which its part there begins. -/
def State.perLine (s : State) (pa n : Nat) (f : State → Nat → State) : State :=
  if crosses pa n then f (f s pa) (nextLine pa) else f s pa

/-- A write performed at the homes of the lines that it touches. -/
def State.linesPut (s : State) (pa : Nat) (bs : List Byte) : State :=
  (s.put pa bs).perLine pa bs.length (fun t a => t.touchPool a true)

/-- A posted store to global memory, in one part for each line. -/
def State.postLines (s : State) (pa : Nat) (bs : List Byte) : State :=
  if crosses pa bs.length then
    (s.post (.line (pa / 64)) (w64 pa) (bs.take (firstPart pa))).post (.line (pa / 64 + 1)) (w64 (nextLine pa))
      (bs.drop (firstPart pa))
  else s.post (.line (pa / 64)) (w64 pa) bs

/-- An L1 holds `n` bytes of one line, and their number. -/
def Core.partHeld (c : Core) (a n : Nat) : Bool :=
  let l := mget {} c.l1 (a / 64)
  !l.filling && l.has (laneMask (a % 64) n)
def Core.partRead (c : Core) (a n : Nat) : Nat := (mget {} c.l1 (a / 64)).read (a % 64) n
/-- One of them lies in a granule that came with an error. -/
def Core.partBad (c : Core) (a n : Nat) : Bool :=
  (List.range 8).any (fun g => (mget {} c.l1 (a / 64)).bad.getLsbD g && decide (a % 64 < 8 * g + 8) && decide (8 * g < a % 64 + n))

/-- The same of a doubleword. -/
def Core.holds (c : Core) (pa : Nat) : Bool :=
  if crosses pa 8 then c.partHeld pa (firstPart pa) && c.partHeld (nextLine pa) (8 - firstPart pa) else c.partHeld pa 8
def Core.doubleword (c : Core) (pa : Nat) : Nat :=
  if crosses pa 8 then c.partRead pa (firstPart pa) + c.partRead (nextLine pa) (8 - firstPart pa) * 2 ^ (8 * firstPart pa)
  else c.partRead pa 8
def Core.inError (c : Core) (pa : Nat) : Bool :=
  if crosses pa 8 then c.partBad pa (firstPart pa) || c.partBad (nextLine pa) (8 - firstPart pa) else c.partBad pa 8

/-- A doubleword load still needs the line. -/
def Core.needs (c : Core) (pa ln : Nat) : Bool :=
  if crosses pa 8 then (decide (pa / 64 = ln) && !c.partHeld pa (firstPart pa))
    || (decide (pa / 64 + 1 = ln) && !c.partHeld (nextLine pa) (8 - firstPart pa))
  else decide (pa / 64 = ln)

/-- The line has been used last of all. -/
def Core.useLine (c : Core) (ln now : Nat) : Core := { c with l1 := mset {} c.l1 ln { mget {} c.l1 ln with used := now } }

/-! ### Tile handles (R24, R25, R244, R245) -/

/-- The fields of a tile handle. -/
structure TileRef where
  dev : Nat
  cl  : Nat
  b   : Nat
  gen : BitVec 8
deriving DecidableEq, Repr

def tileRef (h : W32) : TileRef :=
  { dev := nf h.toNat 24 8, cl := nf h.toNat 17 7, b := nf h.toNat 8 9, gen := h.truncate 8 }

/-- The handle of a buffer at a generation. -/
def mkHandle (dev cl b : Nat) (gen : BitVec 8) : W32 := w32 (dev * 2 ^ 24 + cl * 2 ^ 17 + b * 2 ^ 8 + gen.toNat)

def State.cluster (s : State) (cl : Nat) : Cluster := mget {} s.clusters cl
def State.setCluster (s : State) (cl : Nat) (c : Cluster) : State := { s with clusters := mset {} s.clusters cl c }
def State.updCluster (s : State) (cl : Nat) (f : Cluster → Cluster) : State := s.setCluster cl (f (s.cluster cl))
def State.buf (s : State) (cl b : Nat) : Buffer := mget {} (s.cluster cl).bufs b
def State.setBuf (s : State) (cl b : Nat) (x : Buffer) : State :=
  s.updCluster cl (fun c => { c with bufs := mset {} c.bufs b x })

/-- The current handle of a buffer. -/
def State.handleOf (s : State) (cl b : Nat) : W32 := mkHandle s.devNum cl b (s.buf cl b).gen

/-- The range of CLUSTER and BUFFER (R25). -/
def TileRef.inRange (r : TileRef) : Bool := decide (r.cl ≤ 95) && decide (r.b ≤ 383)

/-- The handle checks of R245: the handle names this device and a buffer, and, unless exempt, its generation is current. -/
def State.tileCheck (s : State) (h : W32) (d : GReg) (wr stale : Bool) : Except Trap TileRef :=
  let r := tileRef h
  if r.dev ≠ s.devNum ∨ !r.inRange then .error { code := 0x0A, eval := zx h, reg := d.toNat, wr := wr }
  else if stale && decide ((s.buf r.cl r.b).gen ≠ r.gen) then .error { code := 0x0B, eval := zx h, reg := d.toNat, wr := wr }
  else .ok r

/-- The latency of a checked access to a tile of a cluster (R139, R234). -/
def tileTrip (u cl : Nat) : Nat := if clusterOf u = cl then 4 else meshTrip (clusterOf u) cl

/-- The latency of a seal (R251), from a lookup core that of its round trip (R386). -/
def sealTrip (u cl : Nat) : Nat := if isLookup u then 24 else tileTrip u cl

end Sys2Proof.Machine
end

