-- ==== Sys2Proof/Machine/Flags.lean ====
section
/-! DEFINITION. Every flag computation and the floating-point arithmetic that sets flags: values and rounding (R88 to R93), exact
sums and products (R204), reciprocal and reciprocal square root (R112 to R117), integer conversions (R109, R211, R212). Words of
both formats are held in the layout of FP32; a BF16 word has its low 16 bits zero (R88). -/
namespace Sys2Proof.Machine

/-! ### Flags (R92, R100, R101) -/

def fNX : W32 := 1
def fUF : W32 := 2
def fOF : W32 := 4
def fDZ : W32 := 8
def fNV : W32 := 16
def fNANS : W32 := 32

/-- FPS.RM (R100): 0 RNE, 1 toward zero, 2 toward −∞, 3 toward +∞. -/
def Bank.rm (b : Bank) : Nat := nf b.fps.toNat 8 2

/-- The flags of a completed instruction are ORed into FPS of the active bank (R102, R213). -/
def State.orFlags (s : State) (f : W32) : State := s.updBk (fun b => { b with fps := b.fps ||| f })

/-- A word and the flags that producing it sets. -/
abbrev FRes := Nat × W32

/-! ### Values (R89) -/

/-- A floating-point value: a NaN, an infinity, or ±m × 2^e. -/
inductive Fp where
  | nan (signalling : Bool)
  | inf (neg : Bool)
  | fin (neg : Bool) (m : Nat) (e : Int)
deriving DecidableEq, Repr

def cNaN : Nat := 0x7FC00000
def signBit (neg : Bool) : Nat := if neg then 0x80000000 else 0
def infWord (neg : Bool) : Nat := signBit neg + 0x7F800000

/-- The value of an FP32 word (R88, R89). -/
def fpOf (v : Nat) : Fp :=
  let neg := nb v 31
  let ex := nf v 23 8
  let fr := nf v 0 23
  if ex = 255 then (if fr = 0 then .inf neg else .nan (!nb v 22))
  else if ex = 0 then .fin neg fr (-149)
  else .fin neg (fr + 2 ^ 23) ((ex : Int) - 150)

def Fp.isNaN : Fp → Bool
  | .nan _ => true | _ => false
def Fp.isSNaN : Fp → Bool
  | .nan s => s | _ => false
def Fp.isZero : Fp → Bool
  | .fin _ m _ => decide (m = 0) | _ => false
def Fp.neg : Fp → Bool
  | .nan _ => false | .inf n => n | .fin n _ _ => n
def Fp.flip : Fp → Fp
  | .nan q => .nan q | .inf n => .inf (!n) | .fin n m e => .fin (!n) m e

/-- NV for a signalling operand (R90). -/
def nvIf (b : Bool) : W32 := if b then fNV else 0

/-! ### Rounding (R92, R93) -/

/-- Whether a discarded part rounds the magnitude up: `odd` is the last bit kept, `rem` of `2 * half` is discarded. -/
def roundsUp (rm : Nat) (neg odd : Bool) (rem half : Nat) : Bool :=
  if rm = 0 then decide (half < rem) || (decide (rem = half) && odd && decide (0 < rem))
  else if rm = 1 then false
  else if rm = 2 then neg && decide (0 < rem)
  else !neg && decide (0 < rem)

/-- m × 2^e as a multiple of 2^q, rounded; whether it was exact. -/
def quantise (rm : Nat) (neg : Bool) (m : Nat) (e q : Int) : Nat × Bool :=
  if q ≤ e then (m * 2 ^ (e - q).toNat, true)
  else
    let d := (q - e).toNat
    let n := m / 2 ^ d
    let r := m % 2 ^ d
    (n + b2n (roundsUp rm neg (decide (n % 2 = 1)) r (2 ^ (d - 1))), decide (r = 0))

/-- The value on overflow (R93). -/
def overflowWord (f rm : Nat) (neg : Bool) : Nat :=
  if rm = 0 ∨ (rm = 2 ∧ neg) ∨ (rm = 3 ∧ !neg) then infWord neg else signBit neg + 0x7F800000 - 2 ^ (23 - f)

/-- ±m × 2^e, with m ≠ 0, rounded once to `f` fraction bits with the flags of R92; tininess is found after rounding. -/
def roundF (f rm : Nat) (neg : Bool) (m : Nat) (e : Int) : FRes :=
  if m = 0 then (signBit neg, 0)
  else
    let ex : Int := (Nat.log2 m : Int) + e
    let q : Int := max (ex - f) (-126 - f)
    let (n, exact) := quantise rm neg m e q
    let bits : Nat := ((q + f + 126) * 2 ^ f + n).toNat
    if 255 * 2 ^ f ≤ bits then (overflowWord f rm neg, fOF ||| fNX)
    else
      let free := quantise rm neg m e (ex - f)
      let tiny := decide (ex < -127) || (decide (ex = -127) && decide (free.1 < 2 ^ (f + 1)))
      (signBit neg + bits * 2 ^ (23 - f), if exact then 0 else if tiny then fUF ||| fNX else fNX)

/-! ### Sums and products (R204) -/

/-- The signed integer value of ±m at exponent `e`, taken at the exponent `k ≤ e`. -/
def scaled (neg : Bool) (m : Nat) (e k : Int) : Int :=
  let v : Int := (m * 2 ^ (e - k).toNat : Nat)
  if neg then -v else v

/-- The exact sum of two finite values, rounded once; an exact zero takes the sign of R204. -/
def sumFin (f rm : Nat) (na : Bool) (ma : Nat) (ea : Int) (nb' : Bool) (mb : Nat) (eb : Int) : FRes :=
  let k := min ea eb
  let v := scaled na ma ea k + scaled nb' mb eb k
  if v = 0 then
    (if ma = 0 ∧ mb = 0 ∧ na = nb' then signBit na else signBit (decide (rm = 2)), 0)
  else roundF f rm (decide (v < 0)) v.natAbs k

/-- a + b (R204). -/
def fpAdd (f rm : Nat) (a b : Fp) : FRes :=
  match a, b with
  | .nan s, y => (cNaN, nvIf (s || y.isSNaN))
  | x, .nan s => (cNaN, nvIf (s || x.isSNaN))
  | .inf n, .inf n' => if n = n' then (infWord n, 0) else (cNaN, fNV)
  | .inf n, .fin _ _ _ => (infWord n, 0)
  | .fin _ _ _, .inf n => (infWord n, 0)
  | .fin na ma ea, .fin nb' mb eb => sumFin f rm na ma ea nb' mb eb

/-- a − b. -/
def fpSub (f rm : Nat) (a b : Fp) : FRes := fpAdd f rm a b.flip

/-- a × b (R204). -/
def fpMul (f rm : Nat) (a b : Fp) : FRes :=
  match a, b with
  | .nan s, y => (cNaN, nvIf (s || y.isSNaN))
  | x, .nan s => (cNaN, nvIf (s || x.isSNaN))
  | .inf n, .inf n' => (infWord (n != n'), 0)
  | .inf n, .fin n' m _ => if m = 0 then (cNaN, fNV) else (infWord (n != n'), 0)
  | .fin n' m _, .inf n => if m = 0 then (cNaN, fNV) else (infWord (n != n'), 0)
  | .fin na ma ea, .fin nb' mb eb => roundF f rm (na != nb') (ma * mb) (ea + eb)

/-- a × b as a value, exact, for two operands that are finite or infinite and do not form 0 × ∞. -/
def prodExact (a b : Fp) : Fp :=
  match a, b with
  | .fin na ma ea, .fin nb' mb eb => .fin (na != nb') (ma * mb) (ea + eb)
  | x, y => .inf (x.neg != y.neg)

/-- 0 × ∞. -/
def zeroTimesInf (a b : Fp) : Bool :=
  match a, b with
  | .inf _, .fin _ m _ => decide (m = 0)
  | .fin _ m _, .inf _ => decide (m = 0)
  | _, _ => false

/-- a × b + c, rounded once (R204). -/
def fpFma (f rm : Nat) (a b c : Fp) : FRes :=
  if zeroTimesInf a b then (cNaN, fNV)
  else if a.isNaN || b.isNaN || c.isNaN then (cNaN, nvIf (a.isSNaN || b.isSNaN || c.isSNaN))
  else fpAdd f rm (prodExact a b) c

/-! ### Order -/

/-- a < b for operands that are not NaN; −0 and +0 are equal. -/
def fpLt (a b : Fp) : Bool :=
  match a, b with
  | .inf n, .inf n' => n && !n'
  | .inf n, _ => n
  | _, .inf n => !n
  | .fin na ma ea, .fin nb' mb eb =>
    let k := min ea eb
    decide (scaled na ma ea k < scaled nb' mb eb k)
  | _, _ => false

/-- a = b for operands that are not NaN. -/
def fpEq (a b : Fp) : Bool := !a.isNaN && !b.isNaN && !fpLt a b && !fpLt b a

/-- One operand unchanged, −0 below +0 (R205); words in, word out. -/
def fpMin (x y : Nat) (wantMax : Bool) : FRes :=
  let a := fpOf x
  let b := fpOf y
  let nv := nvIf (a.isSNaN || b.isSNaN)
  let less := fpLt a b || (a.isZero && b.isZero && a.neg && !b.neg)
  if a.isNaN && b.isNaN then (cNaN, nv)
  else if a.isNaN then (y, nv)
  else if b.isNaN then (x, nv)
  else if less = wantMax then (y, nv) else (x, nv)

/-! ### Approximations (R112 to R117) -/

/-- A finite non-zero magnitude as M × 2^(e − 23) with 2^23 ≤ M < 2^24: M and e (R112). -/
def normalise (m : Nat) (e : Int) : Nat × Int :=
  let l := Nat.log2 m
  (if l ≤ 23 then m * 2 ^ (23 - l) else m / 2 ^ (l - 23), (l : Int) + e)

/-- Entry i of the reciprocal table (R113). -/
def rcpTable (i : Nat) : Nat := (2 ^ 19 + (513 + 2 * i)) / (2 * (513 + 2 * i))

/-- 1/x to `f` fraction bits (R112 to R115). -/
def fpRcp (f : Nat) (a : Fp) : FRes :=
  match a with
  | .nan s => (cNaN, nvIf s)
  | .inf n => (signBit n, 0)
  | .fin n m e =>
    if m = 0 then (infWord n, fDZ)
    else
      let (mm, ex) := normalise m e
      if 126 < ex ∨ (ex = 126 ∧ mm ≠ 2 ^ 23) then (signBit n, fUF ||| fNX)
      else if mm = 2 ^ 23 then roundF f 0 n 1 (-ex)
      else
        let t := rcpTable (nf mm 15 8)
        roundF f 0 n (t * (2 ^ 33 - mm * t)) (-41 - ex)

/-- Entry of the reciprocal square root table whose middle value is `d`/256: floor(2^13/√d + 1/2) (R116). -/
def rsqTable (d : Nat) : Nat := 255 + ((List.range 256).filter (fun k => decide ((2 * (256 + k) - 1) ^ 2 * d ≤ 2 ^ 28))).length

/-- 1/√x to `f` fraction bits (R112, R116, R117). -/
def fpRsq (f : Nat) (a : Fp) : FRes :=
  match a with
  | .nan s => (cNaN, nvIf s)
  | .inf n => if n then (cNaN, fNV) else (0, 0)
  | .fin n m e =>
    if m = 0 then (infWord n, fDZ)
    else if n then (cNaN, fNV)
    else
      let (mm, ex) := normalise m e
      let odd := decide (ex % 2 ≠ 0)
      let ex' := if odd then ex - 1 else ex
      let mm' := if odd then 2 * mm else mm
      if mm' = 2 ^ 23 then roundF f 0 false 1 (-(ex' / 2))
      else
        let d := 257 + 2 * nf mm 16 7
        let t := rsqTable (if odd then 2 * d else d)
        roundF f 0 false (t * (3 * 2 ^ 41 - mm' * t ^ 2)) (-51 - ex' / 2)

/-! ### Integers (R109, R211, R212) -/

/-- A finite value rounded to an integer; whether it was exact. -/
def toInt (rm : Nat) (neg : Bool) (m : Nat) (e : Int) : Int × Bool :=
  let (n, x) := quantise rm neg m e 0
  (if neg then -(n : Int) else n, x)

/-- A value as an integer in a range (R211). -/
def fpToInt (rm : Nat) (lo hi : Int) (a : Fp) : Int × W32 :=
  match a with
  | .nan _ => (0, fNV)
  | .inf n => (if n then lo else hi, fNV)
  | .fin n m e =>
    let (v, x) := toInt rm n m e
    if v < lo then (lo, fNV) else if hi < v then (hi, fNV) else (v, if x then 0 else fNX)

/-- An integer rounded once (R212). -/
def fpOfInt (f rm : Nat) (v : Int) : FRes := roundF f rm (decide (v < 0)) v.natAbs 0

/-- A word rounded to another precision; a NaN becomes canonical (R92, R210). -/
def fpNarrow (f rm : Nat) (a : Fp) : FRes :=
  match a with
  | .nan s => (cNaN, nvIf s)
  | .inf n => (infWord n, 0)
  | .fin n m e => roundF f rm n m e

/-- What a conversion to a narrow integer delivers (R109): the code, the flag NANS, whether it saturated. -/
def fpToCode (bits : Nat) (signed sym : Bool) (sub : Nat) (a : Fp) : Nat × W32 × Bool :=
  let hi : Int := if signed then 2 ^ (bits - 1) - 1 else 2 ^ bits - 1
  let lo : Int := if signed then (if sym then -hi else -(2 ^ (bits - 1) : Int)) else 0
  match a with
  | .nan _ => (sub % 2 ^ bits, fNANS, false)
  | .inf n => (wrapN bits (if n then lo else hi), 0, true)
  | .fin n m e =>
    let q := (toInt 0 n m e).1
    (wrapN bits (min (max q lo) hi), 0, decide (q < lo) || decide (hi < q))

/-- The magnitude of a word, for AMAX (R109, R111). -/
def magnitude (v : Nat) : Nat := v % 2 ^ 31

end Sys2Proof.Machine
end

