-- ==== Sys2Proof/Machine/Global.lean ====
section
/-! DEFINITION. Global memory through handles: XLAT, HDROP, PREF, LD and ST (07_strand_engine_memory.md R227 to R231). -/
namespace Sys2Proof.Machine

/-! ### XLAT, HDROP, PREF -/

/-- The handle that XLAT writes (R228). -/
def handleFor (va : W64) (p : PageInfo) (w : Bool) : Handle :=
  let off := nf va.toNat 0 57 % p.size.bytes
  { v := true, w := w, pool := p.pool, psz := p.size, rd := p.rd, vbase := va, pbase := w64 (p.base + off),
    span := w64 (p.size.bytes - off) }

/-- XLAT (R228). -/
def execXlat (d a : GReg) (h : HReg) (w : Bool) (s : State) : Out :=
  let va := s.readG a
  onBoth s (if !canonical va then .trap { code := 0x12, eval := va }
    else
      let t := s.walked (nf va.toNat 0 57)
      match s.pageFor (nf va.toNat 0 57) w s.super with
      | none => .same (t.pageFault va h w)
      | some p => (t.writeH h (handleFor va p w)).gives d (handleFor va p w).span 48)

/-- HDROP clears V (R229). -/
def execHdrop (h : HReg) (s : State) : Out := onBoth s (.ok (s.writeH h { s.readH h with v := false }) 4)

/-- The line that PREF requests, as twice its number plus the mark of a read-duplicated page, if it requests one (R229). -/
def State.prefLine (s : State) (hd : Handle) (o : Int) : Option Nat :=
  if hd.v && !hd.pool && decide (0 ≤ o) && decide (o < hd.span.toNat) && !isLookup s.cur
  then some (2 * ((hd.pbase.toNat + o.toNat) / 64) + b2n hd.rd) else none

/-- PREF (R229); a lookup core has no L1 to fill (R377). -/
def execPref (a : GReg) (h : HReg) (i : BitVec 8) (s : State) : Out :=
  onBoth s (.ok (match s.prefLine (s.readH h) ((s.readG a).toInt + 64 * i.toInt) with
    | some x => s.updCore s.cur (fun c => { c with pref := if c.pref.contains x then c.pref else c.pref ++ [x] })
    | none => s) 4)

/-! ### Reads and writes at a home -/

/-- The unit's own earlier posted stores on the path to the lines are performed first (R231, R380). -/
def State.pathFirst (s : State) (pa n : Nat) : State := s.perLine pa n (fun t a => t.landFor t.cur (.line (a / 64)))
/-- A write is sent to the homes of its lines and answered (R58). -/
def State.atHome (s : State) (pa n : Nat) : State := (s.pathFirst pa n).perLine pa n (fun t a => t.exchange t.cur (sliceKey a))

/-- The error trap of a global load (0x14). -/
def loadError (va : W64) (h : HReg) : Trap := { code := 0x14, eval := va, reg := h.toNat }

/-- A read of one line at a slice: its home, or the slice of the reader's stack for a read-duplicated page (R77, R78). -/
def State.readSlice (s : State) (u pa : Nat) (rd : Bool) : State := if rd then s.replicate pa u else s.exchange u (sliceKey pa)

/-- A read at the slices leaves the lines there: pool lines in recency order, replicas of a read-duplicated page (R77 to R79). -/
def State.readAtHome (s : State) (pa n : Nat) (rd : Bool) : State :=
  ((s.pathFirst pa n).perLine pa n (fun t a => t.readSlice t.cur a rd)).perLine pa n (fun x a => x.touchPool a false)

/-- A doubleword read at its home: pool pages and lookup slots (R231, R380). -/
def State.ldHome (s : State) (d : GReg) (h : HReg) (pa : Nat) (va : W64) (rd : Bool) : Done :=
  let t := s.readAtHome pa 8 rd
  if t.bad pa 8 then t.errorTrap pa (loadError va h) else t.gives d (w64 (t.numAt pa 8)) 8

/-- A doubleword read through the L1: a hit, or a wait for its line or lines (R231). -/
def State.ldL1 (s : State) (d : GReg) (h : HReg) (pa : Nat) (va : W64) : Done :=
  let c := s.core s.cur
  if !c.holds pa then .stay (s.awaits (.load d pa va h.toNat))
  else if c.inError pa then s.errorTrap pa (loadError va h)
  else
    let c1 := c.useLine (pa / 64) (s.ticket + 1)
    (s.bump.setCore s.cur (if crosses pa 8 then c1.useLine (pa / 64 + 1) (s.ticket + 1) else c1)).gives d (w64 (c.doubleword pa)) 7

/-- LD (R230, R231). -/
def execLd (d a : GReg) (h : HReg) (i : BitVec 12) (s : State) : Out :=
  let hd := s.readH h
  let o := offsetOf (s.readG a) i
  onBoth s (match handleCheck hd h o 8 false with
    | .error t => .trap t
    | .ok pa => if !s.mapped pa then .fault (.unmappedPhysical pa)
      else if hd.pool || isLookup s.cur then s.ldHome d h pa (hd.vbase + intW o) hd.rd
      else s.ldL1 d h pa (hd.vbase + intW o))

/-- A slice still holds a replica of the line at `a` that the running slot has not seen withdrawn (R77). -/
def State.replicated (s : State) (a : Nat) : Bool :=
  decide (mget 0 s.replicas (a / 64) ≠ 0) && decide (s.me.clearedLine ≠ some (a / 64))

/-- A write to a line of a read-duplicated page: the slot parks until no slice holds a replica, then the home performs it
(R77, R231). The core's own copy of the line goes, since its later loads must find the write (R50; log entry 22). -/
def State.replicaStore (s : State) (pa n : Nat) (k : State → Done) : Done :=
  if s.replicated pa then .stay (s.parkFor (.replica (pa / 64)) .wait)
  else if crosses pa n && s.replicated (nextLine pa) then .stay (s.parkFor (.replica (pa / 64 + 1)) .wait)
  else k s

/-- A store at the home slice in the strand's own time (R77). -/
def State.homeStore (s : State) (pa v : Nat) : Done :=
  s.replicaStore pa 8 (fun t =>
    .ok (((t.atHome pa 8).perLine pa 8 (fun x a => x.dropOwnLine x.cur a)).linesPut pa (leBytes 8 v)) 8)

/-- `n` bytes of one line stored into the L1 in cycle `cyc`; none when every way of its set is dirty (R148, R149, R231). The line
takes a place in the FIFO when it first becomes dirty (R60, R61). -/
def Core.storePart (c : Core) (a n v now cyc : Nat) : Option Core :=
  let ln := a / 64
  let l := mget {} c.l1 ln
  let put (m : Map Line) (l : Line) : Core :=
    { c with
      l1 := mset {} m ln { l.write (a % 64) n v with used := now, since := if l.dirty = 0 then cyc else l.since }
      fifo := if l.dirty = 0 then c.fifo ++ [.line ln] else c.fifo }
  if c.l1.any (fun e => e.1 == ln) then some (put c.l1 l)
  else (makeWay c.l1 ln).map (fun m => put m { filling := true })

/-- The line at `a` is, or would be filled, read-only (R231). -/
def Core.readOnly (c : Core) (a : Nat) (rd : Bool) : Bool :=
  if c.l1.any (fun e => e.1 == a / 64) then (mget {} c.l1 (a / 64)).ro else rd

/-- A doubleword stored through the L1 (R148, R149, R231). -/
def State.stL1 (s : State) (pa v : Nat) (rd : Bool) : Done :=
  let c := s.core s.cur
  let n := firstPart pa
  if c.readOnly pa rd || (crosses pa 8 && c.readOnly (nextLine pa) rd) then s.homeStore pa v
  else match (if crosses pa 8 then (c.storePart pa n v (s.ticket + 1) s.cycle).bind (fun c1 =>
        c1.storePart (nextLine pa) (8 - n) (v / 2 ^ (8 * n)) (s.ticket + 1) s.cycle)
      else c.storePart pa 8 v (s.ticket + 1) s.cycle) with
    | none => .stay (s.parkFor (.way (pa / 64)) .run)
    | some c' => .ok (s.bump.setCore s.cur c') 4

/-- ST (R230, R231, R380). -/
def execSt (x a : GReg) (h : HReg) (i : BitVec 12) (s : State) : Out :=
  let hd := s.useH h
  let v := (s.readG x).toNat
  onBoth s (match handleCheck hd h (offsetOf (s.readG a) i) 8 true with
    | .error t => .trap t
    | .ok pa => if !s.mapped pa then .fault (.unmappedPhysical pa)
      else (if hd.rd && (hd.pool || isLookup s.cur) then s.homeStore pa v
        else if hd.pool || isLookup s.cur then .ok (s.postLines pa (leBytes 8 v)) 4
        else s.stL1 pa v hd.rd).holding (.handle hd))

end Sys2Proof.Machine
end

