-- ==== Sys2Proof/Machine/Local.lean ====
section
/-! DEFINITION. Loads and stores of local memory and mesh addresses (07_strand_engine_memory.md R232 to R235; 14_fabric_engine.md
R404). -/
namespace Sys2Proof.Machine

/-- A value of `n` bytes extended to 64 bits (R232). -/
def extended (n v : Nat) (x : Bool) : W64 := if x then BitVec.ofInt 64 (sfield (8 * n) v) else w64 v

/-- The memory-error trap of an access by offset or mesh address. -/
def meshError (ea : W64) : Trap := { code := 0x14, eval := ea }

/-- A load from a memory of this device at its point of order (R66, R67). -/
def State.loadAt (s : State) (d : GReg) (key n : Nat) (x : Bool) (ea : W64) (lat : Nat) : Done :=
  if s.bad key n then s.errorTrap key (meshError ea) else s.gives d (extended n (s.numAt key n) x) lat

/-- LL (R232, R233, R379). -/
def execLl (d a : GReg) (z : MemSize) (x : Bool) (i : BitVec 12) (s : State) : Out :=
  onBoth s (match s.localOff (s.readG a) i z.bytes false with
    | .error t => .trap t
    | .ok o => (s.landFor s.cur (.localMem s.cur)).loadAt d (ownBase s.cur + o) z.bytes x (w64 o) 6)

/-- An access that waits for another device writes there: ECAUSE.WR of its traps (R165; log entry 42). -/
def RemoteOp.writes : RemoteOp → Bool
  | .load .. => false
  | .store .. => true
  | .atomic _ code _ _ _ => decide (code ≠ 0)
  | .fab _ code _ => decide (code ≠ 0)
  | .value _ wr _ => wr

/-- A request to another device, or the memory-error trap where no route leads there (R404). -/
def State.sendTo (s : State) (p : Place) (ma : W64) (r : RemoteRequest) (op : RemoteOp) : Done :=
  if s.routeless p.dev then .trap { meshError ma with wr := op.writes }
  else .stay ({ s with outbox := s.outbox ++ [OutMsg.request p.dev r] }.awaits (.remote op))

/-- LM (R232 to R234). -/
def execLm (d a : GReg) (z : MemSize) (x : Bool) (i : BitVec 12) (s : State) : Out :=
  onStrand s (match s.meshPlace (s.readG a) i z.bytes false with
    | .error t => .trap t
    | .ok (p, ma) =>
      if p.dev ≠ s.devNum then s.sendTo p ma (.read s.devNum p.mesh false z.bytes) (.load d z.bytes x ma)
      else (if p.tile then s else s.landFor s.cur (.localMem p.unit)).loadAt d p.key z.bytes x ma
        (meshTrip (clusterOf s.cur) p.cl))

/-- SL: posted (R66). -/
def execSl (x a : GReg) (z : MemSize) (i : BitVec 12) (s : State) : Out :=
  onBoth s (match s.localOff (s.readG a) i z.bytes true with
    | .error t => .trap t
    | .ok o => .ok (s.post (.localMem s.cur) (w64 o) (leBytes z.bytes (s.readG x).toNat)) 4)

/-- The tile-closed trap of a store or atomic into a buffer that is not OPEN: REG is its field [25:21] (R165, R232), EVAL the
buffer's current handle (R30, R235; log entry 23). -/
def State.closedTrap (s : State) (cl b : Nat) (d : GReg) : Trap := closedAt (zx (s.handleOf cl b)) d

/-- SM: posted into a local memory, checked into tile data (R66, R68, R235). One to another device goes out when it issues, so that
the core's accesses to that memory leave in program order, and stays posted until its landing is acknowledged (R62, R67); a store
for which no route exists is dropped (R404). -/
def execSm (x a : GReg) (z : MemSize) (i : BitVec 12) (s : State) : Out :=
  let n := z.bytes
  let bs := leBytes n (s.readG x).toNat
  onStrand s (match s.meshPlace (s.readG a) i n true with
    | .error t => .trap t
    | .ok (p, ma) =>
      if p.dev ≠ s.devNum then
        let req := RemoteRequest.write s.devNum p.mesh false 1 n 0 bs
        if p.tile then s.sendTo p ma req (.store x ma)
        else if s.routeless p.dev then .ok (s.updMe (fun y => { y with linkDrop := some p.dev })) 4
        else .ok ({ s with outbox := s.outbox ++ [OutMsg.request p.dev req] }.post (.device p.dev p.unit) p.mesh bs) 4
      else if p.tile then
        if (s.buf p.cl p.buf).state = .open_ then .ok (s.put p.key bs) (tileTrip s.cur p.cl)
        else .trap (s.closedTrap p.cl p.buf x)
      else .ok (s.post (.localMem p.unit) (w64 p.off) bs) 4)

end Sys2Proof.Machine
end

