-- ==== Sys2Proof/Machine/Atomic.lean ====
section
/-! DEFINITION. Atomics and ordered accesses (07_strand_engine_memory.md R236 to R240). -/
namespace Sys2Proof.Machine

/-- The parts of an order (R47, R64). -/
def orderRels : Order → Bool
  | .release | .acqRel | .seqCst => true
  | _ => false
def orderAcqs : Order → Bool
  | .acquire | .acqRel | .seqCst => true
  | _ => false

/-- One atomic: its AOP (R237), what it writes for the old value, whether gd takes the old value. -/
structure Aop where
  code  : BitVec 4
  size  : AtSize
  n     : Nat
  m     : Nat
  write : Nat → Option Nat
  gives : Bool

def Aop.isLoad (o : Aop) : Bool := decide (o.code = 0)
def Aop.reads (o : Aop) : Bool := decide (o.code ≠ 1)

/-- What the instruction does once its place has answered with the old value: gd, the clocks of a seq_cst access, the acquire
(R52, R58, R63, R64). -/
def State.atomEnd (s : State) (d : GReg) (r : Order) (c : Scope) (o : Aop) (old lat : Nat) (home : Option Nat) : Done :=
  let s1 := match home with
    | some k => if r = .seqCst then s.stamp s.cur k else s.exchange s.cur k
    | none => if r = .seqCst then s.setClock s.cur (s.clockOf s.cur + 1) else s
  let s2 := if orderAcqs r then s1.acquire s.cur s.slot c else s1
  .ok (if o.gives then s2.writeG d (w64 old) else s2) (lat + if orderAcqs r then acqCost s.cur c else 0)

/-- The running core's own copy of the line goes, its earlier stores first (R65). -/
def State.ownLineFirst (s : State) (pa : Nat) : State := (s.landFor s.cur (.line (pa / 64))).dropOwnLine s.cur pa

/-- An atomic at the home of a physical address (R65, R77, R240). -/
def State.atomGlobal (s : State) (d : GReg) (h : HReg) (r : Order) (c : Scope) (o : Aop) (pa : Nat) (va : W64) (rd : Bool) : Done :=
  let n := o.size.bytes
  let go (t : State) : Done :=
    let t1 := t.perLine pa n State.ownLineFirst
    let old := t1.numAt pa n
    if o.reads && t1.bad pa n then t1.errorTrap pa { loadError va h with wr := !o.isLoad }
    else
      let t2 := match o.write old with
        | some v => t1.linesPut pa (leBytes n v)
        | none => t1.perLine pa n (fun x a => x.touchPool a false)
      t2.atomEnd d r c o old 8 (some (sliceKey pa))
  if rd && (o.write (s.numAt pa n)).isSome then s.replicaStore pa n go else go s

/-- An atomic at a local memory or a scratchpad of this device (R235, R240). -/
def State.atomMesh (s : State) (d : GReg) (r : Order) (c : Scope) (o : Aop) (p : Place) (ma : W64) : Done :=
  let n := o.size.bytes
  let t := if p.tile then s else s.landFor s.cur (.localMem p.unit)
  if p.tile && !o.isLoad && decide ((s.buf p.cl p.buf).state ≠ .open_) then .trap (s.closedTrap p.cl p.buf d)
  else if o.reads && t.bad p.key n then t.errorTrap p.key { meshError ma with wr := !o.isLoad }
  else
    let old := t.numAt p.key n
    let t2 := match o.write old with
      | some v => t.put p.key (leBytes n v)
      | none => t
    t2.atomEnd d r c o old (meshTrip (clusterOf s.cur) p.cl) none

/-- Every atomic: the checks of R230 or R233, the release part of its order, the access (R240). A lookup slot has M = 0 only
(R379). -/
def State.atomic (s : State) (d a : GReg) (h : HReg) (r : Order) (c : Scope) (m : Bool) (o : Aop) : Out :=
  let n := o.size.bytes
  let rel (k : State → Done) : Done := if orderRels r then s.releasing c k else k s
  if m then
    onStrand s (match s.meshPlace (s.readG a) 0 n (!o.isLoad) with
      | .error t => .trap t
      | .ok (p, ma) =>
        rel (fun t =>
          if p.dev ≠ t.devNum then
            t.sendTo p ma (.atomic t.devNum p.mesh false o.code o.size (w64 o.n) (w64 o.m) (t.clockOf t.cur)) (.atomic d o.code r c ma)
          else t.atomMesh d r c o p ma))
  else
    let hd := s.useH h
    let off := offsetOf (s.readG a) 0
    onBoth s (match handleCheck hd h off n (!o.isLoad) with
      | .error t => .trap t
      | .ok pa => if !s.mapped pa then .fault (.unmappedPhysical pa)
        else (rel (fun t => t.atomGlobal d h r c o pa (hd.vbase + intW off) hd.rd)).holding (.handle hd))

/-- n of R237: the low bytes of gd. -/
def State.datum (s : State) (d : GReg) (z : AtSize) : Nat := (s.readG d).toNat % 2 ^ (8 * z.bytes)

/-- Operations of R237 on numbers of `w` bits. -/
def pickMin (w : Nat) (signed wantMax : Bool) (x y : Nat) : Nat :=
  let less := if signed then decide (sfield w x < sfield w y) else decide (x < y)
  if less = wantMax then y else x

/-- The sum in FP32, rounded by RNE, without flags (R239). -/
def fpSum32 (x y : Nat) : Nat := (fpAdd 23 0 (fpOf x) (fpOf y)).1

/-- The operation that an AOP names, on an old value and n; `m` is the new value of a CAS (R237, R238). -/
def aopValue (code : BitVec 4) (z : AtSize) (old n m : Nat) : Option Nat :=
  let w := 8 * z.bytes
  match code.toNat with
  | 1 | 2 => some n
  | 3 => if old = n then some m else none
  | 4 => some ((old + n) % 2 ^ w)
  | 5 => some (old &&& n)
  | 6 => some (old ||| n)
  | 7 => some (old ^^^ n)
  | 8 => some (pickMin w true false old n)
  | 9 => some (pickMin w true true old n)
  | 10 => some (pickMin w false false old n)
  | 11 => some (pickMin w false true old n)
  | 12 => some (fpSum32 old n)
  | _ => none

/-- The atomic that an AOP names, with n from gd and m for a CAS. -/
def mkAop (code : BitVec 4) (z : AtSize) (n m : Nat) : Aop :=
  { code := code, size := z, n := n, m := m, write := fun old => aopValue code z old n m, gives := decide (code ≠ 1) }

def State.aop (s : State) (d a : GReg) (h : HReg) (r : Order) (c : Scope) (z : AtSize) (m : Bool) (code : BitVec 4) : Out :=
  s.atomic d a h r c m (mkAop code z (s.datum d z) 0)

/-- LDA (R237). -/
def execLda (d a : GReg) (h : HReg) (r : Order) (c : Scope) (z : AtSize) (m : Bool) (s : State) : Out :=
  s.aop d a h r c z m 0
/-- STA (R237). -/
def execSta (d a : GReg) (h : HReg) (r : Order) (c : Scope) (z : AtSize) (m : Bool) (s : State) : Out :=
  s.aop d a h r c z m 1
/-- AMOSWAP (R237). -/
def execAmoswap (d a : GReg) (h : HReg) (r : Order) (c : Scope) (z : AtSize) (m : Bool) (s : State) : Out :=
  s.aop d a h r c z m 2
/-- AMOCAS: the register pair 2d and 2d + 1 holds the expected and the new value (R238). -/
def execAmocas (d : BitVec 4) (a : GReg) (h : HReg) (r : Order) (c : Scope) (z : AtSize) (m : Bool) (s : State) : Out :=
  let gd : GReg := BitVec.ofNat 5 (2 * d.toNat)
  s.atomic gd a h r c m (mkAop 3 z (s.datum gd z) (s.datum (gd + 1) z))
/-- AMOADD (R237). -/
def execAmoadd (d a : GReg) (h : HReg) (r : Order) (c : Scope) (z : AtSize) (m : Bool) (s : State) : Out :=
  s.aop d a h r c z m 4
/-- AMOAND (R237). -/
def execAmoand (d a : GReg) (h : HReg) (r : Order) (c : Scope) (z : AtSize) (m : Bool) (s : State) : Out :=
  s.aop d a h r c z m 5
/-- AMOOR (R237). -/
def execAmoor (d a : GReg) (h : HReg) (r : Order) (c : Scope) (z : AtSize) (m : Bool) (s : State) : Out :=
  s.aop d a h r c z m 6
/-- AMOXOR (R237). -/
def execAmoxor (d a : GReg) (h : HReg) (r : Order) (c : Scope) (z : AtSize) (m : Bool) (s : State) : Out :=
  s.aop d a h r c z m 7
/-- AMOMIN (R237). -/
def execAmomin (d a : GReg) (h : HReg) (r : Order) (c : Scope) (z : AtSize) (m : Bool) (s : State) : Out :=
  s.aop d a h r c z m 8
/-- AMOMAX (R237). -/
def execAmomax (d a : GReg) (h : HReg) (r : Order) (c : Scope) (z : AtSize) (m : Bool) (s : State) : Out :=
  s.aop d a h r c z m 9
/-- AMOMINU (R237). -/
def execAmominu (d a : GReg) (h : HReg) (r : Order) (c : Scope) (z : AtSize) (m : Bool) (s : State) : Out :=
  s.aop d a h r c z m 10
/-- AMOMAXU (R237). -/
def execAmomaxu (d a : GReg) (h : HReg) (r : Order) (c : Scope) (z : AtSize) (m : Bool) (s : State) : Out :=
  s.aop d a h r c z m 11
/-- AMOFADD (R239). -/
def execAmofadd (d a : GReg) (h : HReg) (r : Order) (c : Scope) (m : Bool) (s : State) : Out := s.aop d a h r c .w m 12

end Sys2Proof.Machine
end

