-- ==== Sys2Proof/Machine/Engine.lean ====
section
/-! DEFINITION. Memory as the engines reach it: through translations that they hold, page by page (R275, R428, R455), with the
replicas of a line withdrawn before a write (R77); values that the manual leaves open. -/
namespace Sys2Proof.Machine

/-- The next value that the manual leaves undefined (log entry 8). -/
def State.fresh (s : State) : W64 × State := (Config.freeValue s.freeCtr, { s with freeCtr := s.freeCtr + 1 })

/-- The physical address of a virtual one under latched translations. -/
def transIn (pages : List PageTr) (va : Nat) : Option Nat :=
  (pages.find? (fun p => decide (p.va ≤ va) && decide (va < p.va + p.size))).map (fun p => p.pa + (va - p.va))

/-- A range cut at 64-byte boundaries: start and length of each piece. -/
def linePieces : Nat → Nat → Nat → List (Nat × Nat)
  | 0, _, _ => []
  | fuel + 1, a, n =>
    if n = 0 then []
    else let k := min n (64 - a % 64)
      (a, k) :: linePieces fuel (a + k) (n - k)

/-- What a read of `n` bytes at a key reports, line by line (R498; log entry 7). -/
def State.readReport (s : State) (a n : Nat) : State :=
  s.report ((linePieces (n / 64 + 2) a n).flatMap (fun e => s.badKey e.1 e.2))

/-- What an engine's read finds. -/
inductive MemRes where
  | ok (bs : List Byte)
  /-- a granule in error at this key (R498) -/
  | error (key : Nat)
  /-- a physical address that R486 leaves unmapped -/
  | unmapped (pa : Nat)
deriving DecidableEq, Repr

/-- A read of bytes that lie within one line. -/
def State.pieceRead (s : State) (pages : List PageTr) (e : Nat × Nat) : MemRes :=
  match transIn pages e.1 with
  | none => .unmapped e.1
  | some pa => if !s.mapped pa then .unmapped pa else if s.bad pa e.2 then .error pa else .ok (s.bytesAt pa e.2)

/-- The key of a granule in error. -/
def MemRes.key : MemRes → Option Nat
  | .error k => some k
  | _ => none

def MemRes.append : MemRes → MemRes → MemRes
  | .ok x, .ok y => .ok (x ++ y)
  | .ok _, r => r
  | r, _ => r

/-- A read of a virtual range. -/
def State.pagesRead (s : State) (pages : List PageTr) (va n : Nat) : MemRes :=
  (linePieces (n / 64 + 2) va n).foldr (fun e r => (s.pieceRead pages e).append r) (.ok [])

/-- An engine's write at a physical address, within one line: its replicas are gone first (R77). -/
def State.enginePut (s : State) (pa : Nat) (bs : List Byte) : State :=
  (s.withdraw (pa / 64)).homePut pa bs

/-- Bytes written to a virtual range in pieces; the answer is the address of an unmapped piece, or the state. -/
def State.piecesWrite (s : State) (pages : List PageTr) : List (Nat × Nat) → List Byte → Except Nat State
  | [], _ => .ok s
  | e :: es, bs =>
    match transIn pages e.1 with
    | none => .error e.1
    | some pa => if !s.mapped pa then .error pa
      else (s.enginePut pa (bs.take e.2)).piecesWrite pages es (bs.drop e.2)

/-- A write of a virtual range. -/
def State.pagesWrite (s : State) (pages : List PageTr) (va : Nat) (bs : List Byte) : Except Nat State :=
  s.piecesWrite pages (linePieces (bs.length / 64 + 2) va bs.length) bs

end Sys2Proof.Machine
end

