-- ==== Sys2Proof/Machine/Control.lean ====
section
/-! DEFINITION. Branches, jumps, calls, spill moves (06_strand_engine_compute.md R214 to R221), fences, identity, time, traps, ERET,
system registers, cross-bank moves (07_strand_engine_memory.md R241, R242, R262, R263, R170). -/
namespace Sys2Proof.Machine

/-! ### Branches and jumps (R214 to R216) -/

/-- PC + 4 × sext(off), modulo 2^16 (R215). -/
def State.target (s : State) {n : Nat} (o : BitVec n) : BitVec 16 := s.pc + 4 * (o.signExtend 64).truncate 16

/-- A conditional branch; not taken it is an instruction that does not transfer control (R153, R214). -/
def State.branch (s : State) (c : Bool) (o : BitVec 16) : Out :=
  transfer s (if c then .jump s (s.target o) else s.atEnd (.ok s 4))

/-- BEQ (R214). -/
def execBeq (a b : GReg) (o : BitVec 16) (s : State) : Out := s.branch (s.readG a == s.readG b) o
/-- BNE (R214). -/
def execBne (a b : GReg) (o : BitVec 16) (s : State) : Out := s.branch (s.readG a != s.readG b) o
/-- BLT (R214). -/
def execBlt (a b : GReg) (o : BitVec 16) (s : State) : Out := s.branch ((s.readG a).slt (s.readG b)) o
/-- BGE (R214). -/
def execBge (a b : GReg) (o : BitVec 16) (s : State) : Out := s.branch (!(s.readG a).slt (s.readG b)) o
/-- BLTU (R214). -/
def execBltu (a b : GReg) (o : BitVec 16) (s : State) : Out := s.branch ((s.readG a).ult (s.readG b)) o
/-- BGEU (R214). -/
def execBgeu (a b : GReg) (o : BitVec 16) (s : State) : Out := s.branch (!(s.readG a).ult (s.readG b)) o
/-- BKT (R214). -/
def execBkt (k : KReg) (o : BitVec 16) (s : State) : Out := s.branch (s.readK k) o
/-- BKF (R214). -/
def execBkf (k : KReg) (o : BitVec 16) (s : State) : Out := s.branch (!s.readK k) o

/-- J (R216). -/
def execJ (o : BitVec 26) (s : State) : Out := transfer s (.jump s (s.target o))

/-- ga[15:2] × 4 (R218). -/
def wordAt (v : W64) : BitVec 16 := v.truncate 16 &&& 0xFFFC#16

/-- JR (R218). -/
def execJr (a : GReg) (s : State) : Out := transfer s (.jump s (wordAt (s.readG a)))

/-! ### Calls (R144, R145, R217, R218, R220) -/

/-- The spill-limit trap (0x04). -/
def spillTrap (v : W64) (wr : Bool) : Trap := { code := 0x04, eval := v, wr := wr }

/-- CALL and CALLR (R144). -/
def State.callTo (s : State) (n : BitVec 7) (tgt : BitVec 16) : Done :=
  let fb := s.me.fb.toNat
  let size := 8 * n.toNat
  if s.me.bank then .trap s.illegal
  else if 512 < fb + size then .trap (spillTrap (w64 (fb + size)) false)
  else .jump ((s.writeG 1 (w64 (fb * 2 ^ 32 + s.pc.toNat + 4))).updMe (fun x => { x with fb := BitVec.ofNat 10 (fb + size) })) tgt

/-- CALL (R217). -/
def execCall (n : BitVec 7) (o : BitVec 16) (s : State) : Out := onStrand s (s.callTo n (s.target o))

/-- CALLR reads ga before it writes g1 (R218). -/
def execCallr (a : GReg) (n : BitVec 7) (s : State) : Out := onStrand s (s.callTo n (wordAt (s.readG a)))

/-- RET (R145). -/
def execRet (s : State) : Out :=
  let link := s.readG 1
  let fb := nf link.toNat 32 10
  transferStrand s
    (if s.me.bank then .trap s.illegal
     else if 512 < fb ∨ fb % 8 ≠ 0 then .trap (spillTrap link false)
     else .jump (s.updMe (fun x => { x with fb := BitVec.ofNat 10 fb })) (wordAt link))

/-! ### Spill moves (R143, R146, R221) -/

/-- The spill address FB + off, or the trap; WR is set for SPL (R266). -/
def State.spillAt (s : State) (o : BitVec 6) (wr : Bool) (k : Nat → Done) : Done :=
  let a := s.me.fb.toNat + 8 * o.toNat
  if s.me.bank then .trap s.illegal
  else if 512 < a + 8 then .trap (spillTrap (w64 a) wr)
  else k a

/-- SPL (R143). -/
def execSpl (d : GReg) (o : BitVec 6) (s : State) : Out :=
  onStrand s (s.spillAt o true (fun a => .ok (s.updMe (fun x => { x with spill := mset 0 x.spill a (s.readG d) })) 4))

/-- FIL (R143). -/
def execFil (d : GReg) (o : BitVec 6) (s : State) : Out :=
  onStrand s (s.spillAt o false (fun a => s.gives d (mget 0 s.me.spill a) 4))

/-! ### Fences and code (R54, R241, R242) -/

/-- A FENCE with a release part and an acquire part. -/
def fenceRels : FenceKind → Bool
  | .acq => false | _ => true
def fenceAcqs : FenceKind → Bool
  | .rel => false | _ => true

/-- What a FENCE does once its release is complete: the acquire, and the clock of an sc fence (R54, R58). -/
def State.fenceEnd (s : State) (k : FenceKind) (sc : Scope) : Done :=
  let s1 := if fenceAcqs k then s.acquire s.cur s.slot sc else s
  let s2 := if k = .sc then s1.setClock s.cur (s1.clockOf s.cur + 1) else s1
  .ok s2 (4 + if fenceAcqs k then acqCost s.cur sc else 0)

/-- FENCE (R242). -/
def execFence (k : FenceKind) (sc : Scope) (s : State) : Out :=
  onBoth s (if fenceRels k then s.releasing sc (fun t => t.fenceEnd k sc) else s.fenceEnd k sc)

/-- IFENCE empties the fetch buffer (R242). -/
def execIfence (s : State) : Out := onBoth s (.ok (s.updMe (fun x => { x with fetch := [] })) 5)

/-! ### Identity and time (R158, R262, R378) -/

/-- Identity register `n` as a slot reads it. -/
def State.identity (s : State) (n : Nat) : W64 :=
  if n = 3 then w64 s.slot
  else if isLookup s.cur then
    if n = 0 then w64 s.devNum else if n = 1 then w64 (stackOf s.cur * 2 ^ 16) else if n = 2 then w64 s.cur else 0
  else mget 0 (s.core s.cur).ident n

/-- RDID (R262). -/
def execRdid (d : GReg) (n : BitVec 4) (s : State) : Out := onBoth s (s.gives d (s.identity n.toNat) 4)

/-- TIME (R262). -/
def execTime (d : GReg) (s : State) : Out := onBoth s (s.gives d s.time 6)

/-! ### Traps and returns (R169, R170) -/

/-- TRAP: EPC is the next instruction (R169). -/
def execTrap (e : BitVec 11) (s : State) : Out :=
  onBoth s (.same (s.trapEntry { code := 0x15, eval := zx e } ((s.pc + 4).zeroExtend 32)))

/-- A return: PC := EPC, PRIV := PPRIV, IN := 0; from bank 1 with IN = 0 the switch back to bank 0 (R170). -/
def State.returnFrom (s : State) : State :=
  s.updMe (fun x =>
    let y := if x.bank && !x.active.inTrap then { x with bank := false, pfp := false }
      else x.updActive (fun b =>
        { b with pc := b.epc.truncate 16, estat := if b.estat.getLsbD 1 then 3#32 else 0#32 })
    { y with fetch := [], readyAt := s.cycle + 5, drained := false, clearedLine := none, latched := none })

/-- ERET (R170). -/
def execEret (s : State) : Out := transfer s (s.needSuper (.same s.returnFrom))

/-! ### System registers (R162 to R166) -/

/-- SLOTST (R166). -/
def slotst (x : Slot) : W32 :=
  w32 ((match x.st with | .free => 0 | .run => 1 | .wait => 2 | .halt => 3) + b2n x.bank * 4 + b2n x.pfp * 8)

/-- The registers that USER may read (R163). -/
def userReads (n : Nat) : Bool := decide (10 ≤ n ∧ n ≤ 12)

/-- The number is one of R163. -/
def isSr (n : Nat) : Bool := decide (n ≤ 12)

/-- The number is that of FB, which a lookup slot does not hold (R378). -/
def State.lacksFb (s : State) (n : Nat) : Bool := decide (n = 11) && isLookup s.cur

/-- System register `n` of the active bank (R163). FB is held in bank 0 only; its number reaches it from either bank (log entry
85). -/
def State.readSr (s : State) (n : Nat) : W64 :=
  let b := s.bk
  match n with
  | 0 => zx b.estat
  | 1 => zx b.epc
  | 2 => zx b.ecause
  | 3 => b.eval
  | 4 => zx b.evec
  | 5 => zx s.me.pfvec
  | 6 => b.escr0
  | 7 => b.escr1
  | 8 => b.escr2
  | 9 => b.escr3
  | 10 => zx b.fps
  | 11 => zx s.me.fb
  | 12 => zx (slotst s.me)
  | _ => 0

/-- The fields of FPS that exist (R100). -/
def fpsOf (v : W64) : W32 := v.truncate 32 &&& 0x31F#32
/-- A 32-bit offset register whose bits [1:0] and [31:16] are reserved (R163). -/
def offsetReg (v : W64) : W32 := v.truncate 32 &&& 0xFFFC#32

/-- A write of system register `n`, FB from either bank (log entry 85); read-only and reserved fields keep their values (R10, R163 to R165). -/
def State.writeSr (s : State) (n : Nat) (v : W64) : State :=
  match n with
  | 0 => s.updBk (fun b => { b with estat := (b.estat &&& 1) ||| (v.truncate 32 &&& 6#32) })
  | 1 => s.updBk (fun b => { b with epc := offsetReg v })
  | 2 => s.updBk (fun b => { b with ecause := v.truncate 32 &&& 0x3FFF#32 })
  | 3 => s.updBk (fun b => { b with eval := v })
  | 4 => s.updBk (fun b => { b with evec := offsetReg v })
  | 5 => s.updMe (fun x => { x with pfvec := offsetReg v })
  | 6 => s.updBk (fun b => { b with escr0 := v })
  | 7 => s.updBk (fun b => { b with escr1 := v })
  | 8 => s.updBk (fun b => { b with escr2 := v })
  | 9 => s.updBk (fun b => { b with escr3 := v })
  | 10 => s.updBk (fun b => { b with fps := fpsOf v })
  | 11 => if nf v.toNat 3 7 * 8 ≤ 512 then s.updMe (fun x => { x with fb := BitVec.ofNat 10 (nf v.toNat 3 7 * 8) }) else s
  | _ => s

/-- MFSR (R262). FB of a lookup slot reads as a free value (log entry 21). -/
def execMfsr (d : GReg) (n : BitVec 4) (s : State) : Out :=
  onBoth s (if !isSr n.toNat then .trap s.illegal
    else if s.lacksFb n.toNat then s.fresh.2.gives d s.fresh.1 4
    else if userReads n.toNat || s.super then s.gives d (s.readSr n.toNat) 4 else .trap s.privilege)

/-- MTSR (R262); USER may write FPS alone. FB of a lookup slot takes no value (log entry 21). -/
def execMtsr (a : GReg) (n : BitVec 4) (s : State) : Out :=
  onBoth s (if !isSr n.toNat then .trap s.illegal
    else if decide (n = 10) || s.super then .ok (if s.lacksFb n.toNat then s else s.writeSr n.toNat (s.readG a)) 4
    else .trap s.privilege)

/-! ### Cross-bank moves (R263) -/

/-- XGET (R263). -/
def execXget (d : GReg) (k : XKind) (n : BitVec 5) (s : State) : Out :=
  let b := s.me.other
  onBoth s (s.needSuper (s.gives d (match k with
    | .g => b.readG n | .k => zx b.k | .pc => zx b.pc | .fps => zx b.fps) 4))

/-- XPUT (R263). -/
def execXput (a : GReg) (k : XKind) (n : BitVec 5) (s : State) : Out :=
  let v := s.readG a
  onBoth s (s.needSuper (.ok (s.updMe (fun x => x.updOther (fun b => match k with
    | .g => b.writeG n v
    | .k => { b with k := v.truncate 8 }
    | .pc => { b with pc := wordAt v }
    | .fps => { b with fps := fpsOf v }))) 4))

end Sys2Proof.Machine
end

