-- ==== Sys2Proof/Machine/Tile.lean ====
section
/-! DEFINITION. The life of a tile (R26 to R38) and the tile instructions (07_strand_engine_memory.md R243 to R251). -/
namespace Sys2Proof.Machine

/-! ### Presses and their queues, as far as tiles need them -/

def State.pressAt (s : State) (p : Nat) : Press := mget {} s.presses p
def State.setPress (s : State) (p : Nat) (x : Press) : State := { s with presses := mset {} s.presses p x }
def State.updPress (s : State) (p : Nat) (f : Press → Press) : State := s.setPress p (f (s.pressAt p))

/-- The press with number MU of a cluster (R317). -/
def pressNo (cl mu : Nat) : Nat := 2 * cl + mu

/-- Queue `q` of a press, oldest entry first. -/
def Press.queueOf (x : Press) (q : Nat) : List (W32 × Bool) := mget [] x.q q
def Press.setQueue (x : Press) (q : Nat) (l : List (W32 × Bool)) : Press := { x with q := mset [] x.q q l }

/-- The place in the wait for a queue: by the cycle in which the wait began, a seal before MU0's push and that before MU1's (R311;
`kind` 0, 1, 2). Seals of one cycle share a place, and the lowest buffer goes first (log entry 86). -/
def waitKey (cycle kind : Nat) : Nat := 3 * cycle + kind + 1

/-- The tickets of QPUSH instructions of press `p` that wait for a place in queue `q` of press MU (R311, R358). -/
def pushTickets (x : Press) (mu q : Nat) : List Nat :=
  x.held.filterMap (fun e => match e.2.instr with
    | .qpush _ _ u q' => if u.toNat = mu ∧ q'.toNat = q ∧ e.2.ticket ≠ 0 then some e.2.ticket else none
    | _ => none)

/-- The tickets of sealed tiles that wait for a queue (R33). -/
def sealTickets (c : Cluster) (mu q : Nat) : List (Nat × Nat) :=
  c.bufs.filterMap (fun e => if e.2.state = .sealed ∧ e.2.mu.toNat = mu ∧ e.2.queue.toNat = q then some (e.2.ticket, e.1) else none)

/-- Everything that waits for a place in a queue (R311). -/
def State.queueTickets (s : State) (cl mu q : Nat) : List Nat :=
  (sealTickets (s.cluster cl) mu q).map (·.1) ++ pushTickets (s.pressAt (pressNo cl 0)) mu q
    ++ pushTickets (s.pressAt (pressNo cl 1)) mu q

/-- The queue has a place. -/
def State.hasPlace (s : State) (cl mu q : Nat) : Bool := decide (((s.pressAt (pressNo cl mu)).queueOf q).length < 16)

/-- A handle enters a queue; `pushed` says that QPUSH placed it (R28). -/
def State.enqueue (s : State) (cl mu q : Nat) (h : W32) (pushed : Bool) : State :=
  s.updPress (pressNo cl mu) (fun x => x.setQueue q (x.queueOf q ++ [(h, pushed)]))

/-! ### Transitions of R28 -/

/-- FREE, GEN + 1 (R28); a tile that is not OPEN has no armed timer (R26, R32; log entry 43). -/
def Buffer.freed (x : Buffer) : Buffer := { x with state := .free, timed := false, gen := x.gen + 1, holder := none, ticket := 0 }
/-- A permit on a buffer is returned when the buffer becomes FREE (R283). -/
def Chan.returnPermit (x : Chan) (b : Nat) : Chan := { x with permits := x.permits.filter (fun e => e.1 != b) }
def State.freeTile (s : State) (cl b : Nat) : State :=
  s.updCluster cl (fun c => { c with
    bufs := mset {} c.bufs b (mget {} c.bufs b).freed, chans := c.chans.map (fun e => (e.1, e.2.returnPermit b)) })

/-- A 32-bit counter that holds at its largest value (R35). -/
def satInc (v : W32) : W32 := if v = 0xFFFFFFFF#32 then v else v + 1
/-- A count and `n` increments of it. -/
def satIncs (v : W32) (n : Nat) : W32 := w32 (min (v.toNat + n) 0xFFFFFFFF)
/-- The tile counters as a read in cycle `now` finds them: increments of that very cycle come after it (R35). -/
def Cluster.counted (c : Cluster) (now : Nat) : Cluster :=
  if now ≤ c.countAt then c
  else { c with ecnt := satIncs c.ecnt c.ecntNew, rcnt := satIncs c.rcnt c.rcntNew, ecntNew := 0, rcntNew := 0, countAt := now }
def State.countEmpty (s : State) (cl : Nat) : State :=
  s.updCluster cl (fun c => let k := c.counted s.cycle
    { k with ecntNew := k.ecntNew + 1 })
def State.countRefused (s : State) (cl : Nat) : State :=
  s.updCluster cl (fun c => let k := c.counted s.cycle
    { k with rcntNew := k.rcntNew + 1 })

/-- The valid rows, rising. -/
def Buffer.validRows (x : Buffer) : List Nat := onesAt x.vmask.toNat 64

/-- Two valid rows share an RMAP value (R38). -/
def Buffer.sharesRmap (x : Buffer) : Bool :=
  x.haar && !((x.validRows.map (fun i => mget 0 x.rmap i)).Nodup)

/-- What a seal meets at the control word (R28, R32, R38). -/
inductive SealRes where
  /-- the buffer is FREE -/
  | stale
  | already
  | domain
  | empty (s : State)
  /-- sealed; posted at once or waiting in SEALED -/
  | sealed (s : State) (posted : Bool)

/-- A sealed tile enters its queue (R28, R33). -/
def State.postTile (s : State) (cl b : Nat) : State :=
  let x := s.buf cl b
  (s.setBuf cl b { x with state := .queued, ticket := 0 }).enqueue cl x.mu.toNat x.queue.toNat (s.handleOf cl b) false

/-- Any seal (R28, R31 to R33, R38). -/
def State.sealTile (s : State) (cl b : Nat) : SealRes :=
  let x := s.buf cl b
  match x.state with
  | .free => .stale
  | .sealed | .queued | .held => .already
  | .open_ =>
    if x.sharesRmap then .domain
    else if x.vmask = 0 then .empty ((s.freeTile cl b).countEmpty cl)
    else
      let free := s.hasPlace cl x.mu.toNat x.queue.toNat && (s.queueTickets cl x.mu.toNat x.queue.toNat).isEmpty
      let s1 := s.setBuf cl b { x with state := .sealed, timed := false, ticket := waitKey s.cycle 0 }
      if free then .sealed (s1.postTile cl b) true else .sealed s1 false

/-! ### Opening (R26, R28, R129, R246) -/

/-- The fields of a shape word (R129). -/
structure Shape where
  fmt   : Nat
  dom   : Nat
  rows  : Nat
  pitch : Nat
  queue : Nat
  rest  : Bool
deriving DecidableEq, Repr

def shapeOf (w : Nat) : Shape :=
  { fmt := nf w 0 4, dom := nf w 4 4, rows := nf w 8 7, pitch := nf w 16 9, queue := nf w 25 2,
    rest := nb w 15 || decide (nf w 27 5 ≠ 0) }

/-- Within the limits of R26. -/
def Shape.fits (x : Shape) : Bool :=
  !x.rest && decide (1 ≤ x.rows) && decide (x.rows ≤ if x.dom = 1 then 32 else 64) && decide (1 ≤ x.pitch)
    && decide (x.pitch ≤ 256) && decide (x.rows * x.pitch ≤ 256)

/-- The lowest-numbered FREE buffer of a cluster (R246). -/
def State.freeBuf (s : State) (cl : Nat) : Option Nat := lowest 384 (fun b => decide ((s.buf cl b).state = .free))

/-- FREE to OPEN (R28). -/
def State.openTile (s : State) (cl b : Nat) (x : Shape) (mu : BitVec 1) (timer : BitVec 16) : State :=
  s.setBuf cl b
    { state := .open_, timed := decide (timer ≠ 0), haar := decide (x.dom = 1), gen := (s.buf cl b).gen,
      fmt := BitVec.ofNat 4 x.fmt, queue := BitVec.ofNat 2 x.queue, mu := mu, rows := x.rows, pitch := x.pitch,
      timer := timer, due := if timer = 0 then 0 else s.cycle + 64 * timer.toNat }

/-- TOPEN (R246). -/
def execTopen (d a b : GReg) (s : State) : Out :=
  let w := s.readG a
  let t := s.readG b
  let x := shapeOf w.toNat
  let cl := clusterOf s.cur
  onStrand s
    (if 1 < x.dom then .trap { code := 0x0F, eval := w64 (nf w.toNat 0 32), reg := d.toNat }
     else if 6 < x.fmt then .trap { code := 0x10, eval := w64 x.fmt }
     else if nf w.toNat 32 32 ≠ 0 ∨ nf t.toNat 16 48 ≠ 0 ∨ !x.fits then .trap s.command
     else match s.freeBuf cl with
      | none => s.gives d (BitVec.allOnes 64) 8
      | some n => (s.openTile cl n x (if s.cur % 16 < 8 then 0 else 1) (t.truncate 16)).gives d (zx (s.handleOf cl n)) 8)

/-! ### Tile addresses and writes (R29, R244, R247) -/

/-- The fields of a tile address (R244). -/
structure TileAddr where
  handle : W32
  off    : Nat
  row    : Nat
deriving DecidableEq, Repr

/-- A tile address whose layout is right; OFFSET is zero where R243 requires it. -/
def tileAddr (v : W64) (zeroOff : Bool) : Option TileAddr :=
  let off := nf v.toNat 32 16
  if nf v.toNat 54 10 ≠ 0 ∨ (zeroOff ∧ off ≠ 0) then none
  else some { handle := v.truncate 32, off := off, row := nf v.toNat 48 6 }

/-- A handle operand whose upper half is zero (R244). -/
def tileHandle (v : W64) : Option W32 := if nf v.toNat 32 32 ≠ 0 then none else some (v.truncate 32)

/-- Key of a byte of a tile row. -/
def rowKey (cl b : Nat) (x : Buffer) (row off : Nat) : Nat := bufBase cl b + row * 64 * x.pitch + off

/-- Rows that become valid are zero-filled (R29). -/
def State.validate (s : State) (cl b : Nat) (rows : List Nat) : State :=
  let x := s.buf cl b
  rows.foldl (fun t r => if x.vmask.getLsbD r then t else t.zero (rowKey cl b x r 0) (64 * x.pitch)) s

/-- An accepted tile write: the first one to a row zero-fills it and sets its VMASK bit (R29). -/
def State.tileWrite (s : State) (cl b row off : Nat) (bs : List Byte) : State :=
  let x := s.buf cl b
  ((s.validate cl b [row]).put (rowKey cl b x row off) bs).setBuf cl b { x with vmask := x.vmask ||| (1#64 <<< row) }

/-- The tile-closed, tile-bounds and domain traps; REG is the gd field (R165, R167). -/
def closed (h : W32) (d : GReg) (wr : Bool) : Trap := { code := 0x0C, eval := zx h, reg := d.toNat, wr := wr }
def tileBounds (row off : Nat) (d : GReg) : Trap :=
  { code := 0x0D, eval := w64 (row % 2 ^ 16 + off % 2 ^ 16 * 2 ^ 16), reg := d.toNat, wr := true }
def domainTrap (h : W32) (d : GReg) (wr : Bool) : Trap := { code := 0x0F, eval := zx h, reg := d.toNat, wr := wr }

/-- A tile write that names a tile address: its layout, then its handle (R244, R245). What it would write makes WR 1 in its
traps (R165; log entry 42). -/
def State.onTile (s : State) (v : W64) (zeroOff : Bool) (k : TileRef → TileAddr → Buffer → Done) : Out :=
  onStrand s (match tileAddr v zeroOff with
    | none => .trap s.command
    | some t => match s.tileCheck t.handle 0 true true with
      | .error e => .trap e
      | .ok r => k r t (s.buf r.cl r.b))

/-- A tile instruction that names a handle. -/
def State.onHandle (s : State) (v : W64) (d : GReg) (wr stale : Bool) (k : TileRef → W32 → Buffer → Done) : Out :=
  onStrand s (match tileHandle v with
    | none => .trap s.command
    | some h => match s.tileCheck h d wr stale with
      | .error e => .trap e
      | .ok r => k r h (s.buf r.cl r.b))

/-- TWR.H, TWR.W, TWR.D (R247). -/
def State.twr (s : State) (a b : GReg) (n : Nat) : Out :=
  s.onTile (s.readG a) false (fun r t x =>
    if x.state ≠ .open_ then .trap (closed t.handle 0 true)
    else if x.rows ≤ t.row ∨ t.off % n ≠ 0 ∨ 64 * x.pitch < t.off + n then .trap (tileBounds t.row t.off 0)
    else .ok (s.tileWrite r.cl r.b t.row t.off (leBytes n (s.readG b).toNat)) (tileTrip s.cur r.cl))

/-- TWR.H (R247). -/
def execTwrH (a b : GReg) (s : State) : Out := s.twr a b 2
/-- TWR.W (R247). -/
def execTwrW (a b : GReg) (s : State) : Out := s.twr a b 4
/-- TWR.D (R247). -/
def execTwrD (a b : GReg) (s : State) : Out := s.twr a b 8

/-- TPOS (R27, R247). -/
def execTpos (a b : GReg) (s : State) : Out :=
  let v := s.readG b
  s.onTile (s.readG a) true (fun r t x =>
    if x.state ≠ .open_ then .trap (closed t.handle 0 true)
    else if x.rows ≤ t.row then .trap (tileBounds t.row 0 0)
    else if 2 ^ 24 ≤ v.toNat ∨ (x.haar ∧ v.toNat % 32 ≠ 0) then .trap { code := 0x0E, eval := v, wr := true }
    else if x.haar ∧ t.row ≠ 0 then .trap (domainTrap t.handle 0 true)
    else .ok (s.setBuf r.cl r.b { x with pos := mset 0 x.pos t.row (v.truncate 24) }) (tileTrip s.cur r.cl))

/-- TRMAP (R27, R247). -/
def execTrmap (a b : GReg) (s : State) : Out :=
  let v := s.readG b
  s.onTile (s.readG a) true (fun r t x =>
    if x.state ≠ .open_ then .trap (closed t.handle 0 true)
    else if x.rows ≤ t.row then .trap (tileBounds t.row 0 0)
    else if !x.haar then .trap (domainTrap t.handle 0 true)
    else if 32 ≤ v.toNat then .trap s.command
    else .ok (s.setBuf r.cl r.b { x with rmap := mset 0 x.rmap t.row (v.truncate 5) }) (tileTrip s.cur r.cl))

/-- TMASK: VMASK becomes `f` of itself and gb; rows newly set are zero-filled (R29, R247). -/
def State.tmask (s : State) (a b : GReg) (f : BitVec 64 → BitVec 64 → BitVec 64) : Out :=
  s.onHandle (s.readG a) 0 true true (fun r h x =>
    let m := f x.vmask (s.readG b)
    if x.state ≠ .open_ then .trap (closed h 0 true)
    else match (onesAt m.toNat 64).find? (fun i => decide (x.rows ≤ i)) with
    | some i => .trap (tileBounds i 0 0)
    | none => .ok ((s.validate r.cl r.b (onesAt m.toNat 64)).setBuf r.cl r.b { x with vmask := m }) (tileTrip s.cur r.cl))

/-- TMASK.OR (R247). -/
def execTmaskOr (a b : GReg) (s : State) : Out := s.tmask a b (fun m v => m ||| v)
/-- TMASK.CLR (R247). -/
def execTmaskClr (a b : GReg) (s : State) : Out := s.tmask a b (fun m v => m &&& ~~~v)
/-- TMASK.SET (R247). -/
def execTmaskSet (a b : GReg) (s : State) : Out := s.tmask a b (fun _ v => v)

/-- TDROP (R28, R247). -/
def execTdrop (a : GReg) (s : State) : Out :=
  s.onHandle (s.readG a) 0 false true (fun r h x =>
    if x.state ≠ .open_ then .trap (closed h 0 false)
    else .ok (s.freeTile r.cl r.b) (tileTrip s.cur r.cl))

/-! ### Control words (R26, R248, R249) -/

def stateCode : TileState → Nat
  | .free => 0 | .open_ => 1 | .sealed => 2 | .queued => 3 | .held => 4

/-- TIMER: what remains of the time, in units of 64 cycles (R26, R32). -/
def Buffer.remaining (x : Buffer) (now : Nat) : Nat := if x.timed then min x.timer.toNat ((x.due - now + 63) / 64) else 0

/-- Bits [63:0] of the control word (R26). -/
def Buffer.low (x : Buffer) (now : Nat) : Nat :=
  stateCode x.state + b2n x.timed * 2 ^ 3 + b2n x.haar * 2 ^ 4 + x.gen.toNat * 2 ^ 8 + x.fmt.toNat * 2 ^ 16
    + x.queue.toNat * 2 ^ 20 + x.mu.toNat * 2 ^ 22 + x.rows % 128 * 2 ^ 24 + x.pitch % 512 * 2 ^ 32 + x.remaining now * 2 ^ 48

/-- A scope by its code (R236). -/
def scopeOf (n : Nat) : Scope :=
  match n with
  | 0 => .strand | 1 => .core | 2 => .cluster | 3 => .stack | 4 => .device | _ => .domain

/-- TSTAT (R248): sel[0] the half, sel[1] an acquire at the scope sel[4:2]. -/
def execTstat (d a : GReg) (sel : BitVec 5) (s : State) : Out :=
  s.onHandle (s.readG a) d false false (fun r _ x =>
    let v := if sel.getLsbD 0 then x.vmask else w64 (x.low s.cycle)
    let t := if sel.getLsbD 1 then s.acquire s.cur s.slot (scopeOf (nf sel.toNat 2 3)) else s
    t.gives d v (tileTrip s.cur r.cl + if sel.getLsbD 1 then acqCost s.cur (scopeOf (nf sel.toNat 2 3)) else 0))

/-- TCNT (R249); increments of its own cycle come after it (R35). -/
def execTcnt (d : GReg) (clr : Bool) (n : BitVec 1) (s : State) : Out :=
  let cl := clusterOf s.cur
  let c := (s.cluster cl).counted s.cycle
  let v := if n = 0 then c.ecnt else c.rcnt
  let t := if clr then s.setCluster cl (if n = 0 then { c with ecnt := 0 } else { c with rcnt := 0 }) else s
  onStrand s (if clr then s.needSuper (t.gives d (zx v) 4) else t.gives d (zx v) 4)

/-! ### SEAL (R250, R251) -/

/-- SEAL. -/
def execSeal (d a : GReg) (s : State) : Out :=
  s.onHandle (s.readG a) d false true (fun r h _ =>
    s.releasing (if clusterOf s.cur = r.cl then .cluster else .device) (fun t =>
      match t.sealTile r.cl r.b with
      | .stale => .trap { code := 0x0B, eval := zx h, reg := d.toNat }
      | .already => t.gives d 1 (tileTrip s.cur r.cl)
      | .domain => .trap (domainTrap h d false)
      | .empty u => u.gives d 2 (tileTrip s.cur r.cl)
      | .sealed u true => u.gives d 0 (tileTrip s.cur r.cl)
      | .sealed u false => .stay (u.parkFor (.posting d r.cl r.b) .wait)))

end Sys2Proof.Machine
end

