-- ==== Sys2Proof/Machine/Thread.lean ====
section
/-! DEFINITION. Strands, event queues, task cells and row messages (07_strand_engine_memory.md R252 to R260; R155 to R157). -/
namespace Sys2Proof.Machine

/-! ### Starts (R142, R155, R253, R254) -/

/-- Argument registers from g2 upward. -/
def withArgs (b : Bank) (args : List W64) : Bank :=
  (args.zipIdx.foldl (fun acc e => acc.writeG (BitVec.ofNat 5 (2 + e.2)) e.1) b)

/-- A slot that starts: registers at reset but for those given, bank 0 active, ready 8 cycles later (R142, R155). Its acquire mark is
that of the slot, which a start does not move back (R393, R398; log entry 96). -/
def freshSlot (now mark : Nat) (pc : BitVec 16) (sup : Bool) (b : Bank) : Slot :=
  { st := .run, readyAt := now + 8, acqMark := mark, b0 := { b with pc := pc, estat := if sup then 1 else 0 } }

/-- The lowest FREE slot among those that START and SPAWN take: 1 to 15, on a lookup core 1 to 7 (R253, R379). -/
def State.freeSlot (s : State) (u : Nat) : Option Nat :=
  lowest (if isLookup u then 8 else 16) (fun i => decide (i ≠ 0) && decide ((s.slotOf u i).st = .free))

/-- START (R253): a release at CORE scope, so that a helper on a lookup core starts with no older acquire mark than its starter's
(log entry 96). -/
def execStart (d a : GReg) (s : State) : Out :=
  onBoth s (s.releasing .core (fun t => match t.freeSlot t.cur with
    | none => t.gives d 0 4
    | some i =>
      let b := withArgs { fps := t.bk.fps } [t.readG 2, t.readG 3, t.readG 4, t.readG 5]
      let x := freshSlot t.cycle (max (t.slotOf t.cur i).acqMark t.me.acqMark) ((t.readG a).truncate 16 &&& 0xFFFC#16) t.super (b.writeG 30 (t.readG 30))
      (t.setSlot t.cur i x).gives d (w64 i) 4))

/-- A field of a record by its bits (R457). -/
def WorkRec.field (r : WorkRec) (lo n : Nat) : Nat := nf ((nth 0 r.words (lo / 64)).toNat) (lo % 64) n

/-- The task that is bound to a core. -/
def State.taskOf (s : State) (u : Nat) : Option Task :=
  match (s.core u).task with
  | none => none
  | some k => s.dist.bound.find? (fun t => t.key == k)

/-- PRIV of the record of the core's task (R254, R457). -/
def State.taskPriv (s : State) (u : Nat) : Bool :=
  match s.taskOf u with
  | some t => decide (t.rec_.field 121 1 = 1)
  | none => false

/-- A core takes strands for its task: its part is bound and its control strand has not ended it (R254, R264). -/
def State.takesStrands (s : State) (u : Nat) : Bool :=
  match (s.core u).task with
  | none => false
  | some k => !(s.core u).ended && !(s.dist.bound.any (fun t => t.key == k && t.reported.contains u))

/-- SPAWN (R254); WR of its mesh-address trap is 0 (R165; log entry 42). -/
def execSpawn (d a b : GReg) (s : State) : Out :=
  onStrand s (match s.resolve s.cur (s.readG a) 4 with
    | none => .trap (meshTrap (s.readG a) false)
    | some p =>
      if p.tile || decide (p.dev ≠ s.devNum) then .trap (meshTrap (s.readG a) false)
      else s.releasing .device (fun t =>
        let u := p.unit
        let lat := meshTrip (clusterOf t.cur) p.cl
        match if t.takesStrands u then t.freeSlot u else none with
        | some i =>
          let x := freshSlot t.cycle (t.slotOf u i).acqMark (BitVec.ofNat 16 p.off) (t.taskPriv u)
            (withArgs {} [t.readG b, t.readG (b + 1), t.readG (b + 2), t.readG (b + 3)])
          (((t.setSlot u i x).exchange t.cur u).acquire u i .device).gives d (w64 i) lat
        | none => (t.exchange t.cur u).gives d 0 lat))

/-! ### EXIT and YIELD (R157, R255, R384) -/

/-- A slot that has become FREE: nothing of its strand goes on; its registers keep what they hold until it starts again. A
report of a dropped store (R404) that is still due goes with the strand, at a pre-emption too: the context image of R178 has no
place for it (log entry 84). -/
def Slot.freed (x : Slot) : Slot :=
  { x with st := .free, wait := .none, fetch := [], drained := false, clearedLine := none, latched := none, bag := none, sparse := [], linkDrop := none }

/-- Every slot of a core but slot 0 is FREE. -/
def State.helpersFree (s : State) (u : Nat) : Bool :=
  (s.core u).slots.all (fun e => decide (e.1 = 0) || decide (e.2.st = .free))

/-- The control strand's slot goes FREE and the core's part of the task has ended (R157). -/
def State.endPart (s : State) (u : Nat) : State := (s.updSlot u 0 Slot.freed).updCore u (fun c => { c with ended := true })

/-- A lookup core whose slots are all FREE by EXIT stops running (R384). -/
def State.lookupExit (s : State) (u i : Nat) : State :=
  let t := s.updSlot u i Slot.freed
  t.updCore u (fun c => if c.slots.all (fun e => decide (e.2.st = .free)) then { c with look := { c.look with run := false } } else c)

/-- EXIT (R157, R255). -/
def execExit (s : State) : Out :=
  transfer s (if s.me.bank then .trap s.illegal
    else if isLookup s.cur then .same (s.lookupExit s.cur s.slot)
    else if s.slot ≠ 0 then .same (s.updSlot s.cur s.slot Slot.freed)
    else if s.helpersFree s.cur then .same (s.endPart s.cur)
    else .stay (s.parkFor .exit .wait))

/-- YIELD (R255). -/
def execYield (n : BitVec 6) (s : State) : Out := onBoth s (.ok s (4 + 16 * n.toNat))

/-! ### Event queues (R256, R257) -/

def Core.eqOf (c : Core) (n : Nat) : List EqEntry := mget [] c.eq n
def Core.setEq (c : Core) (n : Nat) (l : List EqEntry) : Core := { c with eq := mset [] c.eq n l }

/-- An entry appended to event queue `n` of a core; none when it holds 16 (R256). -/
def State.postEq (s : State) (u n : Nat) (w : W64) (sc : Scope) : Option State :=
  if (((s.core u).eqOf n).length < 16) then some (s.updCore u (fun c => c.setEq n (c.eqOf n ++ [⟨w, sc⟩]))) else none

/-- Slots of a core that wait on event queue `n`, with their tickets. -/
def Core.eqWaiters (c : Core) (n : Nat) : List (Nat × Nat) :=
  c.slots.filterMap (fun e => match e.2.wait with
    | .waitq _ n' k => if n' = n then some (k, e.1) else none
    | _ => none)

/-- The oldest entry of queue `n`, taken (R257). -/
def State.takeEq (s : State) (u n : Nat) : Option (EqEntry × State) :=
  match (s.core u).eqOf n with
  | [] => none
  | e :: rest => some (e, s.updCore u (fun c => c.setEq n rest))

/-- WAITQ (R257): waiters are served in the order in which they began to wait. -/
def execWaitq (d : GReg) (n : BitVec 2) (s : State) : Out :=
  let wait := Done.stay ((s.parkFor (.waitq d n.toNat (s.ticket + 1)) .wait).bump)
  onBoth s (if ((s.core s.cur).eqWaiters n.toNat).isEmpty then
    match s.takeEq s.cur n.toNat with
    | none => wait
    | some (e, t) => (t.acquire t.cur t.slot e.scope).gives d e.word (6 + acqCost t.cur e.scope)
    else wait)

/-- The core that a mesh address names (S = 0, OFFSET = 0), on any device of the domain (R256). -/
def State.coreNamed (s : State) (ma : W64) : Option Place :=
  match s.resolve s.cur ma 1 with
  | some p => if p.tile || decide (p.off ≠ 0) then none else some p
  | none => none

/-- Round trip of a strand's or lookup slot's access to a cluster of the device, as far as it is fixed (R234). -/
def tripFrom (u cl : Nat) : Nat := if isLookup u then 8 else meshTrip (clusterOf u) cl

/-- POSTQ (R256); WR of its traps is 0 (R165; log entry 42). -/
def execPostq (d a b : GReg) (n : BitVec 2) (s : State) : Out :=
  onBoth s (match s.coreNamed (s.readG a) with
    | none => .trap (meshTrap (s.readG a) false)
    | some p =>
      if p.dev ≠ s.devNum then s.releasing .domain (fun t =>
        t.sendTo p (t.readG a) (.post t.devNum p.unit n.toNat (t.readG b) (t.clockOf t.cur)) (.value d false (t.readG a)))
      else s.releasing (between s.cur p.unit) (fun t =>
        match t.postEq p.unit n.toNat (t.readG b) (between t.cur p.unit) with
        | some t' => (t'.exchange t.cur p.unit).gives d 1 (tripFrom t.cur p.cl)
        | none => (t.exchange t.cur p.unit).gives d 0 (tripFrom t.cur p.cl)))

/-! ### Task cells (R258, R470, R471) -/

/-- The task of a parked-task table entry becomes ready, with the DISC value of its cell (R471, R472). -/
def State.makeReady (s : State) (park : Nat) (disc : Bool) : State :=
  match s.dist.parked.find? (fun e => e.1 == park) with
  | none => s
  | some e => { s with dist := { s.dist with
      parked := mins (merase s.dist.parked park) park { e.2 with disc := disc }, ready := s.dist.ready ++ [park] } }

/-- A decrement of a task cell as one action at its bank: the count after it, none when the count was 0 (R258, R471). -/
def State.decCell (s : State) (key : Nat) : Option (Nat × State) :=
  let v := s.numAt key 8
  let count := nf v 0 32
  if count = 0 then none
  else if count = 1 ∧ nb v 32 then some (0, (s.putNum key 8 0).makeReady (nf v 34 12) (nb v 33))
  else some (count - 1, s.putNum key 8 (v - 1))

/-- TASKDEC (R258); it writes the cell, so WR of its traps is 1 (R165; log entry 42). -/
def execTaskdec (d a : GReg) (s : State) : Out :=
  let ma := s.readG a
  onBoth s (match s.resolve s.cur ma 8 with
    | none => .trap (meshTrap ma true)
    | some p =>
      if p.tile then .trap (meshTrap ma true)
      else if p.dev ≠ s.devNum then s.releasing .domain (fun t =>
        t.sendTo p ma (.taskdec t.devNum p.unit p.off) (.value d true ma))
      else s.releasing (between s.cur p.unit) (fun t =>
        let t1 := t.landFor t.cur (.localMem p.unit)
        if t1.bad p.key 8 then t1.errorTrap p.key { meshError ma with wr := true }
        else match t1.decCell p.key with
        | none => t1.gives d (BitVec.allOnes 64) (tripFrom t.cur p.cl)
        | some (n, t2) => t2.gives d (w64 n) (tripFrom t.cur p.cl)))

/-! ### Row messages (R259, R260) -/

/-- The inbox of a core takes a message, and the sender learns that it has (R58, R259). -/
def State.deliver (s : State) (u : Nat) (m : Message) : State :=
  (s.updCore u (fun c => { c with inbox := c.inbox ++ [m] })).exchange m.sender u

/-- MSEND (R259): where the inbox is full the slot waits, and its L is still a mesh round trip at the least. WR of its trap
is 0 (R165; log entry 42). -/
def execMsend (a b : GReg) (t : BitVec 6) (s : State) : Out :=
  let ma := s.readG a
  onStrand s (match s.coreNamed ma with
    | none => .trap (meshTrap ma false)
    | some p =>
      if p.dev ≠ s.devNum ∨ rowOf p.cl ≠ rowOf (clusterOf s.cur) then .trap (meshTrap ma false)
      else
        let sc := between s.cur p.unit
        s.releasing sc (fun x =>
          if (x.core p.unit).inbox.length < 16 then
            .ok (x.deliver p.unit ⟨x.readG b, t.toNat, x.cur, sc⟩) (meshTrip (clusterOf x.cur) p.cl)
          else .stay ((x.updMe (fun y => { y with
            wait := .msend p.unit t.toNat (x.readG b) sc (x.ticket + 1), st := .wait
            readyAt := x.cycle + meshTrip (clusterOf x.cur) p.cl })).bump)))

/-- A receive for tag `t` matches a message (R260). -/
def tagMatches (t : Nat) (m : Message) : Bool := decide (t = 63) || decide (m.tag = t)

/-- Slots of a core that wait in MRECV: ticket, slot, tag. -/
def Core.recvWaiters (c : Core) : List (Nat × Nat × Nat) :=
  c.slots.filterMap (fun e => match e.2.wait with
    | .mrecv _ t k => some (k, e.1, t)
    | _ => none)

/-- Position of the oldest message that a receive with tag `t` and ticket `k` takes: one that it matches and that no slot which
began to wait earlier matches (R260). -/
def Core.recvPlace (c : Core) (t k : Nat) : Option Nat :=
  findIdx (fun m => tagMatches t m && !(c.recvWaiters.any (fun w => decide (w.1 < k) && tagMatches w.2.2 m))) c.inbox

/-- MRECV (R260). -/
def execMrecv (d : GReg) (t : BitVec 6) (s : State) : Out :=
  let c := s.core s.cur
  onStrand s (match c.recvPlace t.toNat (s.ticket + 1) with
    | none => .stay ((s.parkFor (.mrecv d t.toNat (s.ticket + 1)) .wait).bump)
    | some i =>
      let m := nth ⟨0, 0, 0, .core⟩ c.inbox i
      ((s.setCore s.cur { c with inbox := dropNth c.inbox i }).acquire s.cur s.slot m.scope).gives d m.word (6 + acqCost s.cur m.scope))

end Sys2Proof.Machine
end

