-- ==== Sys2Proof/Machine/Copy.lean ====
section
/-! DEFINITION. The copy unit's commands as strands issue them (09_copy_unit.md R270 to R289): channel registers, descriptors,
endpoint checks, the queueing of transfer commands, CPY.ABORT, completion words. -/
namespace Sys2Proof.Machine

def Cluster.chan (c : Cluster) (ch : Nat) : Chan := mget {} c.chans ch
def State.chan (s : State) (cl ch : Nat) : Chan := (s.cluster cl).chan ch
def State.setChan (s : State) (cl ch : Nat) (x : Chan) : State := s.updCluster cl (fun c => { c with chans := mset {} c.chans ch x })
/-- Channel register `n` (R270). -/
def Chan.reg (x : Chan) (n : Nat) : Nat := (mget 0 x.regs n).toNat
def CopyCmd.reg (x : CopyCmd) (n : Nat) : Nat := (mget 0 x.regs n).toNat

/-- Cluster of the running strand. -/
def State.cl (s : State) : Nat := clusterOf s.cur

/-- CPY.SETR (R270, R273). -/
def execCpySetr (a : GReg) (c n : BitVec 3) (s : State) : Out :=
  let x := s.chan s.cl c.toNat
  onStrand s (.ok (s.setChan s.cl c.toNat { x with regs := mset 0 x.regs n.toNat (s.readG a) }) 4)

/-- CPY.GETR: register 7 is WP, read with an acquire at CLUSTER scope (R272). -/
def execCpyGetr (d : GReg) (c n : BitVec 3) (s : State) : Out :=
  let x := s.chan s.cl c.toNat
  onStrand s (if n = 7 then (s.acquire s.cur s.slot .cluster).gives d (zx x.wp) 6
    else s.gives d (mget 0 x.regs n.toNat) 4)

/-! ### Translations -/

/-- Every page from `va` up to `stop`, found as XLAT finds it, at its address modulo 2^57 (R275 does not say what lies past 2^57; log
entry 36); none when one is not present. `fuel` bounds the pages. -/
def State.pagesOf (s : State) : Nat → Nat → Nat → Option (List (PageTr × PageInfo))
  | 0, _, _ => some []
  | fuel + 1, va, stop =>
    if stop ≤ va then some []
    else match s.walk (nf va 0 57) with
    | none => none
    | some p =>
      let base := va / p.size.bytes * p.size.bytes
      match s.pagesOf fuel (base + p.size.bytes) stop with
      | none => none
      | some rest => some (({ va := base, size := p.size.bytes, pa := p.base, pool := p.pool, rd := p.rd }, p) :: rest)

/-- How many pages of a range are present before the first that is not. -/
def State.presentPages (s : State) : Nat → Nat → Nat → Nat
  | 0, _, _ => 0
  | fuel + 1, va, stop =>
    if stop ≤ va then 0
    else match s.walk (nf va 0 57) with
    | none => 0
    | some p => 1 + s.presentPages fuel (va / p.size.bytes * p.size.bytes + p.size.bytes) stop

/-- What a descriptor, window or ring gets for its range: translations, or status 1 (not present) or 2 (protection). -/
def State.translateRange (s : State) (va len : Nat) (w sup : Bool) : Except Nat (List PageTr) :=
  match s.pagesOf (len / 0x1000 + 2) va (va + len) with
  | none => .error 1
  | some ps => if ps.any (fun p => (w && !p.2.w) || (p.2.sup && !sup)) then .error 2 else .ok (ps.map (·.1))

/-- What the walks over a range report (R498): as far as pages are present. -/
def State.walkedPages (s : State) : Nat → Nat → Nat → State
  | 0, _, _ => s
  | fuel + 1, va, stop =>
    if stop ≤ va then s
    else match s.walk (nf va 0 57) with
    | none => s.walked (nf va 0 57)
    | some p => (s.walked (nf va 0 57)).walkedPages fuel (va / p.size.bytes * p.size.bytes + p.size.bytes) stop

/-- The same for ranges of which each is a start and a length. -/
def State.walkedRanges (s : State) (rs : List (Nat × Nat)) : State :=
  rs.foldl (fun t r => t.walkedPages (r.2 / 0x1000 + 2) r.1 (r.1 + r.2)) s

/-- A configuration with result `r` that has got as far as its translations: it is made, or ends with status 1, 2 or 4 (R275). -/
def translated {α : Type} (r : Except Nat α) : Bool :=
  match r with
  | .ok _ => true
  | .error e => decide (e = 1) || decide (e = 2) || decide (e = 4)

/-- The state after the translations of a configuration, if it got so far. -/
def State.afterWalks {α : Type} (s : State) (r : Except Nat α) (rs : List (Nat × Nat)) : State :=
  if translated r then s.walkedRanges rs else s

/-! ### Descriptors (R275, R276) -/

/-- Σ (DIM_i − 1) × STR_i + E (R276). -/
def TensorDesc.extent (d : TensorDesc) : Nat :=
  (List.zipWith (fun n t => (n - 1) * t) d.dims d.strs).sum + d.esz

/-- The fields of a descriptor record (R275), its translations still to come. -/
def descOf (v : Nat) : TensorDesc :=
  { valid := true, vbase := nf v 0 64, esz := 2 ^ nf v 96 4, ndim := nf v 104 3, w := nb v 112,
    dims := (List.range 4).map (fun i => nf v (128 + 32 * i) 32), strs := (List.range 4).map (fun i => nf v (256 + 64 * i) 64),
    pages := [], task := none }

/-- The FORMAT checks of R275. -/
def descFormat (v : Nat) : Bool :=
  let d := descOf v
  decide (nf v 100 4 ≠ 0) || decide (nf v 107 5 ≠ 0) || decide (nf v 113 15 ≠ 0) || decide (3 < nf v 96 4)
    || decide (d.ndim = 0) || decide (4 < d.ndim) || d.dims.any (fun n => decide (n = 0) || decide (2 ^ 31 < n))
    || (List.range 4).any (fun i => decide (d.ndim ≤ i) && (decide (nth 0 d.dims i ≠ 1) || decide (nth 0 d.strs i ≠ 0)))
    || decide (d.vbase % d.esz ≠ 0) || !canonical (w64 d.vbase)

/-- The RANGE checks of R275. -/
def descRange (v : Nat) : Bool :=
  let d := descOf v
  let st (i : Nat) := nth 0 d.strs i
  decide (st 0 < d.esz)
    || (List.range d.ndim).any (fun i => decide (0 < i) && decide (st i < st (i - 1) * nth 0 d.dims (i - 1)))
    || (List.range d.ndim).any (fun i => decide (st i % d.esz ≠ 0))
    || decide (4096 * nf v 64 32 < d.extent)

/-- Page entries that the descriptors of a cluster hold; one whose V an invalidation has cleared holds its entries still (R275; log
entry 71). -/
def Cluster.entriesUsed (c : Cluster) : Nat := (c.descs.map (fun e => e.2.pages.length)).sum

def Cluster.desc (c : Cluster) (n : Nat) : Option TensorDesc := (c.descs.find? (fun e => e.1 == n)).map (·.2)

/-- CPY.DESC (R275): status, and the descriptor with its page count on success. A descriptor with V = 0 may be created again, and its
old entries are counted while that is decided (log entry 71). -/
def State.makeDesc (s : State) (v n : Nat) : Except Nat TensorDesc :=
  let c := s.cluster s.cl
  let d := descOf v
  if (match c.desc n with | some x => x.valid | none => false) then .error 5
  else if descFormat v then .error 6
  else if descRange v then .error 3
  else match s.translateRange (nf d.vbase 0 57) (4096 * nf v 64 32) d.w s.super with
    | .error e => .error e
    | .ok ps =>
      if 1024 < c.entriesUsed + ps.length then .error 4
      else .ok { d with vbase := nf d.vbase 0 57, pages := ps, task := (s.core s.cur).task }

/-- CPY.DESC. -/
def execCpyDesc (d a b : GReg) (s : State) : Out :=
  let o := (s.readG a).toNat
  let n := (s.readG b).toNat
  onStrand s (if o % 64 ≠ 0 ∨ 0x10000 ≤ o ∨ 63 < n then .trap s.command
    else
      let t0 := s.landFor s.cur (.localMem s.cur)
      let v := t0.numAt (localBase s.cur + o) 64
      let r := t0.makeDesc v n
      let t := t0.afterWalks r [(nf v 0 57, 4096 * nf v 64 32)]
      if t0.bad (localBase s.cur + o) 64 then t0.errorTrap (localBase s.cur + o) (meshError (w64 o))
      else match r with
      | .error e => .okWait (t.writeG d (w64 e)) 16
      | .ok x => .okWait ((t.updCluster t.cl (fun c => { c with descs := mins (merase c.descs n) n x })).writeG d 0)
          (16 + 48 * x.pages.length))

/-- A command names descriptor `n` (R276). -/
def CopyCmd.names (x : CopyCmd) (n : Nat) : Bool :=
  (x.src.isSome && decide (nf (x.reg 0) 0 6 = n)) || (x.dst.isSome && decide (nf (x.reg 1) 0 6 = n))

/-- A running MU.SAVE or MU.LOAD of a press of the cluster names descriptor `n` (R276, R323). -/
def State.imageNames (s : State) (cl n : Nat) : Bool :=
  [0, 1].any (fun m => match (mget {} s.presses (2 * cl + m)).busy with
    | some (.save _ k _ _ _) => k == n
    | some (.load _ k _ _ _) => k == n
    | _ => false)

/-- CPY.DFREE (R276). -/
def execCpyDfree (d a : GReg) (s : State) : Out :=
  let n := (s.readG a).toNat
  let c := s.cluster s.cl
  onStrand s (if 63 < n then .trap s.command
    else if c.chans.any (fun e => e.2.queue.any (fun x => x.names n)) || s.imageNames s.cl n then s.gives d 5 4
    else (s.setCluster s.cl { c with descs := merase c.descs n }).gives d 0 4)

/-! ### Endpoints (R271, R276, R277) -/

/-- A mesh endpoint for `n` bytes on this device, alignment aside: R277 drops that clause of R18 for CPY.LIN, and the model drops it
for CPY.TEN, CPY.TILE and CPY.KVG too (R278, R279, R284; log entry 93). -/
def State.meshRange (s : State) (u ma n : Nat) : Option Place :=
  match s.resolve u (w64 ma) 1 with
  | some p => if p.dev = s.devNum ∧ p.off + n ≤ (if p.tile then 0x600000 else 0x10000) then some p else none
  | none => none

/-- A valid descriptor endpoint whose offset field `v` leaves `n` bytes (R271, R276). -/
def State.descEnd (s : State) (v n : Nat) (w : Bool) : Option TensorDesc :=
  if nf v 6 10 ≠ 0 then none
  else match (s.cluster s.cl).desc (nf v 0 6) with
  | some d => if d.valid && decide (nf v 16 48 + n ≤ d.extent) && (!w || d.w) then some d else none
  | none => none

/-- A completion word (R270): none, or an aligned doubleword of this device. -/
def State.cwOk (s : State) (cw : Nat) : Bool :=
  decide (cw = 0) || (match s.resolve s.cur (w64 cw) 8 with | some p => decide (p.dev = s.devNum) | none => false)

/-- An event target (R270). -/
def State.evtOk (s : State) (e : Nat) : Bool :=
  decide (e = 0) || (match s.resolve s.cur (w64 (e / 4 * 4)) 1 with
    | some p => !p.tile && decide (p.off = 0) && decide (p.dev = s.devNum)
    | none => false)

/-- The core and queue of an event target. -/
def State.evtTarget (s : State) (u : Nat) (e : Nat) : Option (Nat × Nat) :=
  if e = 0 then none
  else (s.resolve u (w64 (e / 4 * 4)) 1).map (fun p => (p.unit, e % 4))

/-! ### Issue (R274) -/

/-- What a command's own rule finds at issue: the descriptors that it latches, its registers with the handle of an opened tile,
and whether it touches global memory. -/
structure Latched where
  src    : Option TensorDesc := none
  dst    : Option TensorDesc := none
  global : Bool := false

/-- CPY.LIN (R277). -/
def State.latchLin (s : State) (x : Chan) : Option Latched :=
  let g := x.reg 2
  let n := nf g 0 32
  let src := if nb g 62 then s.descEnd (x.reg 0) n false else none
  let dst := if nb g 63 then s.descEnd (x.reg 1) n true else none
  if n = 0 ∨ nf g 32 30 ≠ 0 then none
  else if (nb g 62 && src.isNone) || (!nb g 62 && (s.meshRange s.cur (x.reg 0) n).isNone) then none
  else if (nb g 63 && dst.isNone) || (!nb g 63 && (s.meshRange s.cur (x.reg 1) n).isNone) then none
  else some { src := src, dst := dst, global := nb g 62 || nb g 63 }

/-- Box extents and origins of CPY.TEN (R278). -/
def tenX (g i : Nat) : Nat := nf g (15 * i) 15
def tenO (a0 a1 i : Nat) : Nat := if i < 2 then nf a0 (32 * i) 32 else nf a1 (32 * (i - 2)) 32

/-- CPY.TEN (R278). -/
def State.latchTen (s : State) (x : Chan) : Option Latched :=
  let g := x.reg 2
  let out := nb g 63
  let dv := if out then x.reg 1 else x.reg 0
  let mv := if out then x.reg 0 else x.reg 1
  let xs := (List.range 4).map (tenX g)
  if nf g 60 3 ≠ 0 ∨ nf dv 16 48 ≠ 0 ∨ xs.contains 0 then none
  else match s.descEnd dv 0 out with
  | none => none
  | some d =>
    if (List.range 4).any (fun i => (decide (d.ndim ≤ i) && decide (tenX g i ≠ 1))
        || decide (nth 0 d.dims i < tenO (x.reg 3) (x.reg 4) i + tenX g i)) then none
    else if (s.meshRange s.cur mv (d.esz * xs.prod)).isNone then none
    else some { src := if out then none else some d, dst := if out then some d else none, global := true }

/-- Byte offset of source row `i` of CPY.TILE from offset `o`, with a signed stride (R279). -/
def rowOffset (o stride i : Nat) : Int := (o : Int) + (i : Int) * sfield 64 stride

/-- The source of CPY.TILE: every row within its endpoint (R279). The stride of a mesh source counts on the byte offset inside its
unit, and a row outside the unit is refused (log entry 94). -/
def State.latchTileSrc (s : State) (x : Chan) (n b : Nat) : Option Latched :=
  let g := x.reg 2
  let rowsIn (o limit : Nat) : Bool := (List.range n).all (fun i =>
    decide (0 ≤ rowOffset o (x.reg 3) i) && decide (rowOffset o (x.reg 3) i + b ≤ limit))
  if nb g 62 then
    match s.descEnd (x.reg 0) 0 false with
    | some d => if rowsIn (nf (x.reg 0) 16 48) d.extent then some { src := some d, global := true } else none
    | none => none
  else match s.meshRange s.cur (x.reg 0) 0 with
    | some p => if rowsIn p.off (if p.tile then 0x600000 else 0x10000) then some {} else none
    | none => none

/-- CPY.TILE: the checks that do not name the tile's handle (R279). -/
def State.latchTile (s : State) (x : Chan) (rows pitch : Nat) : Option Latched :=
  let g := x.reg 2
  let n := nf g 16 7
  let b := nf g 0 16
  let dst := x.reg 1
  if n = 0 ∨ 64 < n ∨ b = 0 ∨ 16384 < b ∨ nf g 23 39 ≠ 0 ∨ nb g 63 ∨ nf (x.reg 4) 26 38 ≠ 0 ∨ nf dst 54 10 ≠ 0 then none
  else if 64 * pitch < nf dst 32 16 + b ∨ rows < nf dst 48 6 + n then none
  else s.latchTileSrc x n b

/-- CPY.WBLK (R282). -/
def State.latchWblk (s : State) (x : Chan) (h : W64) : Option Latched :=
  let r := tileRef (h.truncate 32)
  let b := s.buf r.cl r.b
  if nf h.toNat 32 32 ≠ 0 ∨ r.dev ≠ s.devNum ∨ r.cl ≠ s.cl ∨ !r.inRange ∨ x.reg 2 ≠ 0 ∨ x.reg 3 ≠ 0 ∨ x.reg 4 ≠ 0
    ∨ nf (x.reg 1) 16 48 % 64 ≠ 0 then none
  else match s.descEnd (x.reg 1) (64 * (1 + b.rows * b.pitch)) true with
  | some d => some { dst := some d, global := true }
  | none => none

/-- CPY.RBLK (R283). -/
def State.latchRblk (s : State) (x : Chan) : Option Latched :=
  let g := x.reg 2
  let sh := shapeOf (nf (x.reg 4) 0 32)
  if nf g 0 16 = 0 ∨ nf g 16 8 = 0 ∨ 32 < nf g 16 8 ∨ nf g 24 40 ≠ 0 ∨ nf (x.reg 4) 33 31 ≠ 0 ∨ sh.dom ≠ 1 ∨ sh.rows ≠ 32
    ∨ 8 < sh.pitch ∨ !sh.fits then none
  else match s.descEnd (x.reg 0) 64 false with
  | some d => some { src := some d, global := true }
  | none => none

/-- CPY.KVG (R284). -/
def State.latchKvg (s : State) (x : Chan) : Option Latched :=
  let a0 := x.reg 3
  let a1 := x.reg 4
  let m := nf a0 24 25
  let rb := nf a1 16 16
  let rp := nf a1 32 16
  if nf (x.reg 0) 32 32 ≠ 0 ∨ m = 0 ∨ 2 ^ 24 < m ∨ nf a0 49 15 ≠ 0 ∨ nf a1 48 16 ≠ 0 ∨ rb < 8 ∨ 16384 < rb ∨ rb % 8 ≠ 0
    ∨ rp < rb ∨ rp % 8 ≠ 0 ∨ s.splice.cfg.isNone ∨ !s.evtOk (x.reg 5) then none
  else if (s.meshRange s.cur (x.reg 1) ((m - 1) * rp + rb)).isNone then none
  else some { global := true }

/-- CPY.PGIN and CPY.PGOUT (R286). -/
def State.latchMove (s : State) (x : Chan) (page : W64) : Option Latched :=
  if nf page.toNat 32 32 ≠ 0 ∨ (List.range 6).any (fun n => decide (x.reg n ≠ 0)) ∨ s.splice.cfg.isNone then none
  else some { global := true }

/-- The command as it enters the queue. -/
def State.queueCopy (s : State) (ch fn : Nat) (l : Latched) (opnd : W64) (drop sl : Bool) (regs : Map W64) : State :=
  let x := s.chan s.cl ch
  let seq := x.seq + 1
  s.setChan s.cl ch { x with seq := seq, queue := x.queue ++
    [{ fn := fn, seq := seq.toNat, unit := s.cur, task := (s.core s.cur).task, regs := regs, opnd := opnd, drop := drop,
       sealed := sl, src := l.src, dst := l.dst }] }

/-- Scope of a copy operation (R287). -/
def Latched.scope (l : Latched) : Scope := if l.global then .device else .cluster

/-- What a command that waits keeps (R274). -/
def Latched.keep (l : Latched) (regs : Map W64) : Latch := .command regs l.src l.dst l.global

/-- A command that has passed its checks: the wait for a queue entry and the release, through which it keeps what it latched, then
`k` (R274). -/
def State.copyGo (s : State) (c : BitVec 3) (l : Latched) (regs : Map W64) (k : State → Done) : Done :=
  (if 4 ≤ (s.chan s.cl c.toNat).queue.length then .stay (s.parkFor .queue .wait) else s.releasing l.scope k).holding (l.keep regs)

/-- A command's checks with the registers that it latches; one that has waited has passed them. -/
def State.copyCheck (s : State) (x : Chan) (l : Option Latched) (k : Latched → Map W64 → Done) : Done :=
  match s.me.latched with
  | some (.command regs src dst wide) => k { src := src, dst := dst, global := wide } regs
  | _ => match l with
    | none => .trap s.command
    | some l => if !s.cwOk (x.reg 6) then .trap s.command else k l x.regs

/-- A transfer command: refusal, wait for a queue entry, release, queueing; gd takes SEQ (R274). -/
def State.copyIssue (s : State) (d : GReg) (c : BitVec 3) (fn : Nat) (opnd : W64) (drop : Bool) (l : Option Latched) : Done :=
  let x := s.chan s.cl c.toNat
  s.copyCheck x l (fun l regs => s.copyGo c l regs (fun t =>
    (t.queueCopy c.toNat fn l opnd drop false regs).gives d (zx (x.seq + 1)) 4))
def State.issueCopy (s : State) (d : GReg) (c : BitVec 3) (fn : Nat) (opnd : W64) (drop : Bool) (l : Option Latched) : Out :=
  onStrand s (s.copyIssue d c fn opnd drop l)

/-- CPY.LIN (R277). -/
def execCpyLin (d : GReg) (c : BitVec 3) (s : State) : Out :=
  s.issueCopy d c 0x12 0 false (s.latchLin (s.chan s.cl c.toNat))
/-- CPY.TEN (R278). -/
def execCpyTen (d : GReg) (c : BitVec 3) (s : State) : Out :=
  s.issueCopy d c 0x13 0 false (s.latchTen (s.chan s.cl c.toNat))
/-- CPY.WBLK (R282). -/
def execCpyWblk (d a : GReg) (p : Bool) (c : BitVec 3) (s : State) : Out :=
  s.issueCopy d c 0x15 (s.readG a) p (s.latchWblk (s.chan s.cl c.toNat) (s.readG a))
/-- CPY.RBLK (R283); a format code of the ring's shape word above 6 raises the format trap (R87). -/
def execCpyRblk (d : GReg) (c : BitVec 3) (s : State) : Out :=
  let fmt := (shapeOf (nf ((s.chan s.cl c.toNat).reg 4) 0 32)).fmt
  onStrand s (if !s.resumed && decide (6 < fmt) then .trap { code := 0x10, eval := w64 fmt }
    else s.copyIssue d c 0x16 0 false (s.latchRblk (s.chan s.cl c.toNat)))
/-- CPY.KVG (R284). -/
def execCpyKvg (d : GReg) (c : BitVec 3) (s : State) : Out :=
  s.issueCopy d c 0x17 0 false (s.latchKvg (s.chan s.cl c.toNat))
/-- CPY.PGIN (R286). -/
def execCpyPgin (d a : GReg) (c : BitVec 3) (s : State) : Out :=
  s.issueCopy d c 0x18 (s.readG a) false (s.latchMove (s.chan s.cl c.toNat) (s.readG a))
/-- CPY.PGOUT (R286). -/
def execCpyPgout (d a : GReg) (c : BitVec 3) (s : State) : Out :=
  s.issueCopy d c 0x19 (s.readG a) false (s.latchMove (s.chan s.cl c.toNat) (s.readG a))

/-- CPY.TILE without open (R279): the handle names this cluster. -/
def State.tileIssue (s : State) (d : GReg) (e : Bool) (c : BitVec 3) : Done :=
  let x := s.chan s.cl c.toNat
  let r := tileRef (w32 (x.reg 1))
  let b := s.buf r.cl r.b
  s.copyCheck x (if r.dev ≠ s.devNum ∨ r.cl ≠ s.cl ∨ !r.inRange then none else s.latchTile x b.rows b.pitch)
    (fun l regs => s.copyGo c l regs (fun t => (t.queueCopy c.toNat 0x14 l 0 false e regs).gives d (zx (x.seq + 1)) 4))

/-- CPY.TILE with open (R279): the traps of TOPEN (R246), the other checks, then the open. -/
def State.tileOpenIssue (s : State) (d a b : GReg) (e : Bool) (c : BitVec 3) : Done :=
  let x := s.chan s.cl c.toNat
  let w := (s.readG a).toNat
  let t := (s.readG b).toNat
  let sh := shapeOf w
  if 1 < sh.dom then .trap { code := 0x0F, eval := w64 (nf w 0 32), reg := d.toNat }
  else if 6 < sh.fmt then .trap { code := 0x10, eval := w64 sh.fmt }
  else s.copyCheck x (if nf w 32 32 ≠ 0 ∨ nf t 16 48 ≠ 0 ∨ !sh.fits then none else s.latchTile x sh.rows sh.pitch)
    (fun l regs => s.copyGo c l regs (fun t' => match t'.freeBuf t'.cl with
      | none => t'.gives d (BitVec.allOnes 64) 8
      | some n =>
        let dst := (mget 0 regs 1).toNat
        let u := t'.openTile t'.cl n sh (if nb (mget 0 regs 4).toNat 25 then 1 else 0) (BitVec.ofNat 16 t)
        let h := u.handleOf u.cl n
        (u.queueCopy c.toNat 0x14 l 0 false e (mset 0 regs 1 (w64 (dst / 2 ^ 32 * 2 ^ 32 + h.toNat)))).gives d (zx h) 8))

/-- CPY.TILE: `e` is seal, `o` is open (R273, R279). -/
def execCpyTile (d a b : GReg) (e o : Bool) (c : BitVec 3) (s : State) : Out :=
  onStrand s (if o then s.tileOpenIssue d a b e c else s.tileIssue d e c)

/-! ### Completion words (R287, R500) -/

/-- Every slot that waits for a queue entry tries again (R274). -/
def Slot.retry (x : Slot) : Slot :=
  match x.wait with
  | .queue => { x with wait := .none, st := .run }
  | _ => x
def State.wakeQueues (s : State) : State :=
  { s with cores := s.cores.map (fun e => (e.1, { e.2 with slots := e.2.slots.map (fun x => (x.1, x.2.retry)) })) }

/-- A doubleword written by an operation at a place of this device: a checked store in tile data, discarded unless the buffer is
OPEN (R500). -/
def State.checkedPut (s : State) (p : Place) (n v : Nat) : State :=
  if p.tile && decide ((s.buf p.cl p.buf).state ≠ .open_) then s else s.putNum p.key n v

/-- The completion word that a mesh address names, resolved for the unit that issued the command. -/
def State.putCw (s : State) (u cw v : Nat) : State :=
  if cw = 0 then s
  else match s.resolve u (w64 cw) 8 with
  | some p => s.checkedPut p 8 v
  | none => s

/-- The completion word of a copy command (R287). -/
def cwWord (status ch seq count : Nat) : Nat := status + ch * 2 ^ 8 + seq % 2 ^ 16 * 2 ^ 16 + count % 2 ^ 32 * 2 ^ 32

/-- COUNT of a command that stops now (R287); for CPY.WBLK the bytes of the block that have landed (log entry 97). -/
def CopyCmd.stopCount (x : CopyCmd) (wp : Nat) : Nat :=
  if x.fn = 0x12 ∨ x.fn = 0x13 ∨ x.fn = 0x14 ∨ x.fn = 0x15 then wp else max x.count x.noted.length

/-- A move that has started (R286, R289). -/
def CopyCmd.moving (x : CopyCmd) : Bool := (decide (x.fn = 0x18) || decide (x.fn = 0x19)) && decide (x.phase ≠ .queued)

/-- Where the destination of a copy starts, as 64-byte boundaries count: its mesh offset or its virtual address. -/
def State.copyStart (s : State) (k : CopyCmd) : Nat :=
  match k.dst with
  | some d => d.vbase + (if k.fn = 0x13 then ((List.range 4).map (fun i => tenO (k.reg 3) (k.reg 4) i * nth 0 d.strs i)).sum
      else nf (k.reg 1) 16 48)
  | none => match s.meshRange k.unit (k.reg 1) 0 with
    | some p => p.off
    | none => 0

/-- RB and RP of a gather (R284). -/
def CopyCmd.rb (c : CopyCmd) : Nat := nf (c.reg 4) 16 16
def CopyCmd.rp (c : CopyCmd) : Nat := nf (c.reg 4) 32 16

/-- Bytes of a gather's rows that `done` destination bytes hold: rows of RB bytes in steps of RP. -/
def CopyCmd.gathered (c : CopyCmd) : Nat := c.done / c.rp * c.rb + min (c.done % c.rp) c.rb
/-- Where byte `j` of its rows lies, from its start. -/
def CopyCmd.gatherAt (c : CopyCmd) (j : Nat) : Nat := j / c.rb * c.rp + j % c.rb

/-- The command stands at a 64-byte destination boundary: what it writes next does not lie in the line of what it wrote last. Units of
CPY.LIN, CPY.TEN and CPY.WBLK end there, though their start may not; rows of tiles begin in lines of their own (R289). -/
def State.atBoundary (s : State) (k : CopyCmd) : Bool :=
  if k.fn = 0x14 ∨ k.fn = 0x16 then true
  else if k.done = 0 then decide (s.copyStart k % 64 = 0)
  else if k.fn = 0x17 then
    decide ((s.copyStart k + k.gatherAt (k.gathered - 1)) / 64 ≠ (s.copyStart k + k.gatherAt k.gathered) / 64)
  else true

/-- CPY.ABORT meets a running command: it ends here, or at its next boundary (R289). -/
def State.abortCmd (s : State) (wp : Nat) (k : CopyCmd) : CopyCmd :=
  if s.atBoundary k then { k with phase := .ended, status := 5, count := k.stopCount wp, pins := [], noted := [] }
  else { k with aborting := true }

/-- CPY.ABORT (R289). -/
def execCpyAbort (d : GReg) (c : BitVec 3) (s : State) : Out :=
  let x := s.chan s.cl c.toNat
  let started := x.queue.filter (fun k => decide (k.phase ≠ .queued))
  let waiting := x.queue.filter (fun k => decide (k.phase = .queued))
  let stops := fun (k : CopyCmd) => decide (k.phase ≠ .queued) && decide (k.phase ≠ .ended) && !k.moving && !k.aborting
  let ended := started.map (fun k => if stops k then s.abortCmd x.wp.toNat k else k)
  let s1 := s.setChan s.cl c.toNat { x with queue := ended }
  let s2 := waiting.foldl (fun (t : State) k => t.putCw k.unit (k.reg 6) (cwWord 5 c.toNat k.seq 0)) s1
  onStrand s (s2.wakeQueues.gives d (w64 (waiting.length + (started.filter stops).length)) 4)

end Sys2Proof.Machine
end

