-- ==== Sys2Proof/Machine/CoreEvents.lean ====
section
/-! DEFINITION. Events of strand and lookup cores: fetch, L1 fills, copy-back, releases, replicas, pool snoops, waits, tile timers
and posting, posted stores landing, words that trap (R33, R61, R62, R77, R80, R150, R157, R188, R257 to R260, R378). An event
whose condition does not hold changes nothing. -/
namespace Sys2Proof.Machine

/-- The same machine seen from slot `i` of unit `u`. -/
def State.seenFrom (s : State) (u i : Nat) : State := { s with cur := u, slot := i }

/-- The instruction of a waiting slot ends now (R138, R142). -/
def State.wake (s : State) (u i : Nat) (k : State → Done) : Out :=
  let t := s.seenFrom u i
  finish t (k t)

/-! ### Stops at an instruction boundary (R177) -/

/-- The instruction at PC is part-way through: it has drained its release, had replicas removed, or latched its operands. -/
def Slot.midway (x : Slot) : Bool := x.drained || x.clearedLine.isSome || x.latched.isSome

/-- The slot stands at an instruction boundary. -/
def Slot.atBoundary (x : Slot) : Bool := decide (x.wait = .none) && !x.midway

/-- A creation has ended (R142, R275). -/
def Slot.created (x : Slot) : Slot := if x.wait = .creating then { x with st := .run, wait := .none } else x

/-- A slot on its way to its boundary: a SEAL on a full queue completes with OK, an access, a release and a store on its way to its
replicas go on, every other wait is abandoned (R177). -/
def State.stopSlot (s : State) (u i : Nat) : State :=
  let x := s.slotOf u i
  match x.wait with
  | .posting d cl _ => (((s.seenFrom u i).writeG d 0).retire (sealTrip u cl)).seenFrom s.cur s.slot
  | .load .. | .way _ | .release | .replica _ | .remote _ => s
  | .none | .creating => s.setSlot u i x.created
  | _ => s.setSlot u i { x with wait := .none, st := .run, drained := false, clearedLine := none, latched := none }

/-- The slots of a core stop, each at its next boundary (R176, R384). -/
def State.haltCore (s : State) (u : Nat) : State :=
  (s.core u).slots.foldl (fun (t : State) e => t.stopSlot u e.1) (s.updCore u (fun c => { c with stopping := true }))

/-- Every slot of a core stands at its boundary. -/
def State.atRest (s : State) (u : Nat) : Bool := (s.core u).slots.all (fun e => e.2.atBoundary)

/-! ### Fetch (R150) -/

/-- The word at an offset of the unit's own memory. -/
def State.codeWord (s : State) (u off : Nat) : W32 := w32 (s.numAt (ownBase u + off) 4)

/-- Words that one block read adds to a buffer: from the next word not fetched to the end of its block, at most 4 in all. -/
def State.blockWords (s : State) (u pc have_ : Nat) : List W32 :=
  let a := pc + 4 * have_
  let upTo := min (4 - a / 4 % 4) (4 - have_)
  if ownSize u ≤ a then [] else (List.range upTo).map (fun i => s.codeWord u (a + 4 * i))

/-- The slot has room for a block read. -/
def Slot.wantsFetch (x : Slot) : Bool := (decide (x.st = .run) || decide (x.st = .wait)) && decide (x.fetch.length ≤ 2)

/-- A block read would bring the slot words: its next word lies in the unit's memory. -/
def Slot.canFetch (u : Nat) (x : Slot) : Bool := x.wantsFetch && decide (x.active.pc.toNat + 4 * x.fetch.length < ownSize u)

/-- The slot that the fetch unit serves: one whose buffer is empty before the others, in round-robin order (R150; log entry 79). -/
def Core.fetchPick (c : Core) (u : Nat) : Option Nat :=
  let n := if isLookup u then 8 else 16
  let order := (List.range n).map (fun i => (c.fetchNext + i) % n)
  let x (i : Nat) : Slot := mget {} c.slots i
  (order.find? (fun i => (x i).canFetch u && (x i).fetch.isEmpty)).or (order.find? (fun i => (x i).canFetch u))

/-- FETCH_BLOCK_READ (R150): one slot in a cycle, and the words reach the buffer 2 cycles later. An error in the block is reported, and its words arrive as they stand (log entry
7). -/
def execFetchBlockRead (u slot : Nat) (s : State) : Out :=
  let c := s.core u
  let x := s.slotOf u slot
  if c.fetchPick u = some slot ∧ c.fetchAt ≤ s.cycle then
    let t0 := s.landFor u (.localMem u)
    let ws := t0.blockWords u x.active.pc.toNat x.fetch.length
    let t := t0.report (t0.badKey (ownBase u + x.active.pc.toNat + 4 * x.fetch.length) (4 * ws.length))
    .next ((t.updCore u (fun k => { k with fetchAt := s.cycle + 1, fetchNext := slot + 1 })).updSlot u slot (fun y => { y with
      fetch := y.fetch ++ ws
      landing := if y.fetch.isEmpty then [] else (y.landing.filter (fun e => decide (s.cycle < e.2))) ++
        [(y.active.pc.toNat + 4 * y.fetch.length, s.cycle + 2)]
      readyAt := if y.fetch.isEmpty then max y.readyAt (s.cycle + 2) else y.readyAt }))
  else .next s

/-! ### L1 and FIFO (R61, R62, R149, R231) -/

/-- Slots of a core that wait for a line. -/
def Core.loadWaiters (c : Core) (ln : Nat) : List Nat :=
  c.slots.filterMap (fun e => match e.2.wait with
    | .load _ pa _ _ => if c.needs pa ln then some e.1 else none
    | _ => none)

/-- The line lies on a read-duplicated page, as its requests say. -/
def Core.lineRd (c : Core) (ln : Nat) : Bool :=
  c.pref.contains (2 * ln + 1) || (c.loadWaiters ln).any (fun i =>
    let x := mget {} c.slots i
    match x.wait with
    | .load _ _ _ h => (mget {} x.active.h h).rd
    | _ => false)

/-- The load of one slot ends if all its bytes are there (R230, R231). -/
def State.loadDone (s : State) (u i : Nat) : State :=
  match (s.slotOf u i).wait with
  | .load d pa va h =>
    let c := s.core u
    let t := s.seenFrom u i
    if !c.holds pa then s
    else if c.inError pa then (t.memError pa).trap (loadError va (BitVec.ofNat 4 h))
    else (t.writeG d (w64 (c.doubleword pa))).retire t.restL
  | _ => s

/-- Slots that wait for a way try again (R149, R231). -/
def Core.wakeWays (c : Core) : Core :=
  { c with slots := c.slots.map (fun e => match e.2.wait with
      | .way _ => (e.1, { e.2 with wait := .none })
      | _ => e) }

/-- The oldest dirty line of a core goes to its home, which acknowledges it, and stays, clean (R58, R61, R148). -/
def State.writeOldest (s : State) (u : Nat) : State :=
  let c := s.core u
  match c.fifo.find? FifoEntry.isLine with
  | some (.line ln) =>
    let l := mget {} c.l1 ln
    ((s.copyBack ln l).exchange u (sliceKey (64 * ln))).setCore u
      { c with l1 := mset {} c.l1 ln { l with dirty := 0, since := 0 }, fifo := fifoWithout c.fifo ln }.wakeWays
  | _ => s

/-- Dirty lines of a core that have been dirty for 4,096 cycles (R60). -/
def Core.overdue (c : Core) (now : Nat) : List FifoEntry :=
  c.fifo.filter (fun e => match e with | .line ln => decide ((mget {} c.l1 ln).since + 4096 ≤ now) | .marker _ => false)

/-- No line stays dirty for longer than 4,096 cycles (R60): they leave in FIFO order. -/
def State.agedOut (s : State) : State :=
  s.cores.foldl (fun t e => (e.2.overdue s.cycle).foldl (fun t' _ => t'.writeOldest e.1) t) s

/-- L1_FILL: a requested line arrives from its home, or from the slice that serves a read-duplicated page (R78, R149, R231). -/
def execL1Fill (u line : Nat) (s : State) : Out :=
  let c := s.core u
  let l := mget {} c.l1 line
  let rd := c.lineRd line
  let waiters := c.loadWaiters line
  if !l.filling && waiters.isEmpty && !(c.pref.any (fun x => x / 2 == line)) then .next s
  else match makeWay c.l1 line with
  | none => .next s
  | some m =>
    let s2 := s.bump.readSlice u (64 * line) rd
    let l' := { l.fill (s2.numAt (64 * line) 64) (s2.badGranules line) rd with used := s.ticket + 1 }
    let s3 := s2.setCore u { c with l1 := mset {} m line l', pref := c.pref.filter (fun x => x / 2 != line) }.wakeWays
    .next (waiters.foldl (fun t i => t.loadDone u i) s3)

/-- FIFO_WRITEBACK (R61, R148). -/
def execFifoWriteback (u : Nat) (s : State) : Out := .next (s.writeOldest u)

/-- No dirty line stands ahead of the slot's marker (R62). -/
def markerFirst (slot : Nat) : List FifoEntry → Bool
  | [] => true
  | .line _ :: _ => false
  | .marker i :: rest => i == slot || markerFirst slot rest

def dropMarker (slot : Nat) (f : List FifoEntry) : List FifoEntry :=
  f.filter (fun e => match e with | .marker i => i != slot | .line _ => true)

/-- RELEASE_COMPLETE: the marker is reached and the slot's posted stores are acknowledged (R62, R67). -/
def execReleaseComplete (u slot : Nat) (s : State) : Out :=
  let c := s.core u
  let waits := match (s.slotOf u slot).wait with | .release => true | _ => false
  if waits && markerFirst slot c.fifo && !(s.posted.any (fun p => p.unit == u && p.slot == slot)) then
    .next ((s.setCore u { c with fifo := dropMarker slot c.fifo }).updSlot u slot
      (fun x => { x with wait := .none, drained := true }))
  else .next s

/-- REPLICA_INVALIDATION_DONE: every slice has answered (R77). -/
def execReplicaInvalidationDone (u slot : Nat) (s : State) : Out :=
  match (s.slotOf u slot).wait with
  | .replica ln =>
    .next (((s.tell u (sliceKey (64 * ln))).withdraw ln).updSlot u slot
      (fun x => { x with wait := .none, st := .run, clearedLine := some ln }))
  | _ => .next s

/-- BACK_INVALIDATE_SNOOP: the line is written back if it is dirty and dropped, and the snoop is answered (R80). A store that the
slice has accepted is performed in the step that accepts it, so none is open here, and one still on its way arrives after the
snoop. `now` is what the pool device holds when the line is read again, where another agent has changed it (R82). -/
def execBackInvalidateSnoop (line : Nat) (now : Option (BitVec 512)) (s : State) : Out :=
  if !s.isPool (64 * line) then .next s
  else
    let data := if (mget {} s.pool line).dirty then some (BitVec.ofNat 512 (s.numAt (64 * line) 64)) else none
    let s2 := { s with pool := merase s.pool line, outbox := s.outbox ++ [OutMsg.snooped line data] }
    .next (match now with
      | some v => { s2 with mem := writeBytes s2.mem (64 * line) (leBytes 64 v.toNat) }
      | none => s2)

/-- POSTED_STORE_LANDING: a posted store reaches its point of order, here or on another device, behind the unit's earlier ones on
its path (R66 to R68). -/
def execPostedStoreLanding (i : Nat) (s : State) : Out :=
  match s.posted[i]? with
  | some p =>
    if (s.posted.take i).any (samePath p.unit p.dest) then .next s
    else .next ({ s with posted := dropNth s.posted i }.land p)
  | none => .next s

/-! ### Waits (R157, R257, R259, R260) -/

/-- WAITQ_TAKE: the slot that began to wait first takes the oldest entry (R257). -/
def execWaitqTake (u slot : Nat) (s : State) : Out :=
  match (s.slotOf u slot).wait with
  | .waitq d n k =>
    if ((s.core u).eqWaiters n).any (fun w => decide (w.1 < k)) then .next s
    else match s.takeEq u n with
    | none => .next s
    | some (e, t) => (t.acquire u slot e.scope).wake u slot (fun x => x.gives d e.word (6 + acqCost u e.scope))
  | _ => .next s

/-- MRECV_TAKE (R260). -/
def execMrecvTake (u slot : Nat) (s : State) : Out :=
  let c := s.core u
  match (s.slotOf u slot).wait with
  | .mrecv d t k =>
    match c.recvPlace t k with
    | none => .next s
    | some i =>
      let m := nth ⟨0, 0, 0, .core⟩ c.inbox i
      ((s.setCore u { c with inbox := dropNth c.inbox i }).acquire u slot m.scope).wake u slot (fun x => x.gives d m.word (6 + acqCost u m.scope))
  | _ => .next s

/-- MSEND_ACCEPT: the inbox has a place (R259). -/
def execMsendAccept (u slot : Nat) (s : State) : Out :=
  match (s.slotOf u slot).wait with
  | .msend target tag w sc _ =>
    if (s.core target).inbox.length < 16 then
      (s.deliver target ⟨w, tag, u, sc⟩).wake u slot (fun x => .ok x x.restL)
    else .next s
  | _ => .next s

/-- CONTROL_EXIT_COMPLETE: the last helper is FREE (R157). -/
def execControlExitComplete (u : Nat) (s : State) : Out :=
  match (s.slotOf u 0).wait with
  | .exit => if s.helpersFree u then .next (s.endPart u) else .next s
  | _ => .next s

/-! ### Tiles (R28, R32, R33, R311) -/

/-- The timer of a buffer has reached 0 (R28, R32). -/
def State.expire (s : State) (cl b : Nat) : State :=
  let x := s.buf cl b
  if x.state = .open_ ∧ x.timed ∧ x.due ≤ s.cycle then
    match s.sealTile cl b with
    | .empty t => t
    | .sealed t _ => t
    | .domain => (s.freeTile cl b).countRefused cl
    | .stale => s
    | .already => s
  else s

/-- TILE_TIMER_EXPIRY (R28, R32). -/
def execTileTimerExpiry (cl b : Nat) (s : State) : Out := .next (s.expire cl b)

/-- The slot whose SEAL waits for a buffer to enter its queue (R33). -/
def State.sealer (s : State) (cl b : Nat) : Option (Nat × Nat × GReg) :=
  s.cores.findSome? (fun e => e.2.slots.findSome? (fun x => match x.2.wait with
    | .posting d cl' b' => if cl' = cl ∧ b' = b then some (e.1, x.1, d) else none
    | _ => none))

/-- A SEAL parked on a buffer returns OK; its L is that of a SEAL beside the wait (R28, R33, R251). -/
def State.sealDone (s : State) (cl b : Nat) : State :=
  match s.sealer cl b with
  | none => s
  | some (u, i, d) => ((s.seenFrom u i).writeG d 0).retire (sealTrip u cl)

/-- The entry of least ticket, with its buffer. -/
def leastTicket : List (Nat × Nat) → Option (Nat × Nat)
  | [] => none
  | e :: es => match leastTicket es with
    | none => some e
    | some m => if m.1 < e.1 then some m else some e

/-- TILE_POSTING: the sealed tile that has waited longest enters its queue (R33, R311). -/
def execTilePosting (cl mu q : Nat) (s : State) : Out :=
  match leastTicket (sealTickets (s.cluster cl) mu q) with
  | some (k, b) =>
    if s.hasPlace cl mu q && !((s.queueTickets cl mu q).any (fun t => decide (t < k))) then
      .next ((s.postTile cl b).sealDone cl b)
    else .next s
  | none => .next s

/-- A handle leaves the queues of a press; the entries behind it keep their order (R28). -/
def Press.unqueue (x : Press) (h : W32) : Press :=
  (List.range 4).foldl (fun y q => y.setQueue q ((y.queueOf q).filter (fun e => e.1 != h))) x

/-- A sealed, queued or held tile is dropped by an engine (R28): its posting is cancelled, a SEAL parked on it returns OK, its
entry leaves its queue. -/
def State.dropTile (s : State) (cl b : Nat) : State :=
  let h := s.handleOf cl b
  let t := s.sealDone cl b
  let u := (t.updPress (pressNo cl 0) (fun x => x.unqueue h)).updPress (pressNo cl 1) (fun x => x.unqueue h)
  u.freeTile cl b

/-! ### Words that trap (R188, R378) -/

/-- ILLEGAL_INSTRUCTION: an unassigned word (R153, R188). -/
def execIllegalInstruction (w : W32) (s : State) : Out := transfer s (.trap { code := 0x02, eval := zx w })

/-- LOOKUP_FETCH_FAULT: a PC of 0x8000 or more (R378). -/
def execLookupFetchFault (s : State) : Out := transfer s (.trap { code := 0x01, eval := zx s.pc })

end Sys2Proof.Machine
end

