-- ==== Sys2Proof/Machine/Splice.lean ====
section
/-! DEFINITION. The Splice engine (15_splice_engine.md R426 to R450): configuration, issue, the commands as resumable
sequences of items, pins of gathers, frames of page moves. -/
namespace Sys2Proof.Machine

/-! ### Layout of the region (R426, R428) -/

def up4 (x : Nat) : Nat := (x + 4095) / 4096 * 4096
def noLink : Nat := 0xFFFFFFFF

namespace SpliceCfg
/-- Tokens of a page, bytes of a token record, of a frame and of a node. -/
def p (g : SpliceCfg) : Nat := 2 ^ g.lp
def rs (g : SpliceCfg) : Nat := 64 * g.rsu
def f (g : SpliceCfg) : Nat := g.p * g.rs
def nsz (g : SpliceCfg) : Nat := 64 + 64 * ((g.p + 15) / 16)
/-- Offsets of the sequence headers, the block tables and the nodes in the metadata area, and its length. -/
def hdrs (g : SpliceCfg) : Nat := up4 (32 * g.npage)
def bts (g : SpliceCfg) : Nat := g.hdrs + up4 (64 * g.nseq)
def nods (g : SpliceCfg) : Nat := g.bts + up4 (4 * g.maxp * g.nseq)
def metaLen (g : SpliceCfg) : Nat := g.nods + g.nsz * g.nodes
def dirAt (g : SpliceCfg) (n : Nat) : Nat := g.mbase + 32 * n
def seqAt (g : SpliceCfg) (n : Nat) : Nat := g.mbase + g.hdrs + 64 * n
def btAt (g : SpliceCfg) (q i : Nat) : Nat := g.mbase + g.bts + 4 * (g.maxp * q + i)
def nodeAt (g : SpliceCfg) (n : Nat) : Nat := g.mbase + g.nods + g.nsz * n
def frameAt (g : SpliceCfg) (pool : Bool) (n : Nat) : Nat := (if pool then g.qbase else g.hbase) + g.f * n
def frames (g : SpliceCfg) (pool : Bool) : Nat := if pool then g.qfr else g.hfr
def stagingEnd (g : SpliceCfg) : Nat := 4096 * g.ssize
/-- Pages of the sequence that `n` tokens fill. -/
def pagesFor (g : SpliceCfg) (n : Nat) : Nat := (n + g.p - 1) / g.p
end SpliceCfg

/-- The fields of the record of R426, its translations still to come. -/
def spliceCfgOf (v : Nat) : SpliceCfg :=
  { mbase := nf v 0 64, hbase := nf v 64 64, qbase := nf v 128 64, sbase := nf v 192 64, hfr := nf v 256 32, qfr := nf v 288 32,
    npage := nf v 320 28, lp := nf v 348 4, nseq := nf v 352 16 + 1, maxp := nf v 368 20 + 1, rsu := nf v 388 16,
    nodes := nf v 404 32, ssize := nf v 436 16, pages := [] }

/-- A field breaks R426. -/
def spliceFormat (v : Nat) : Bool :=
  let g := spliceCfgOf v
  decide (g.mbase % 4096 ≠ 0) || decide (g.hbase % 4096 ≠ 0) || decide (g.sbase % 4096 ≠ 0) || decide (g.hfr = 0)
    || decide (2 ^ 31 < g.hfr) || decide (2 ^ 31 < g.qfr) || (decide (g.qfr = 0) != decide (g.qbase = 0))
    || decide (g.npage = 0) || decide (g.lp < 3) || decide (6 < g.lp) || decide (2 ^ 24 < g.maxp * g.p)
    || decide (g.rsu = 0) || decide (1024 < g.rsu) || decide (g.nodes < 2) || decide (2 ^ 31 < g.nodes) || decide (g.ssize = 0)
    || decide (nf v 452 60 ≠ 0)

/-- The four ranges: start, length, and whether their pages must lie in the pool (R427, R428). -/
def spliceRanges (g : SpliceCfg) : List (Nat × Nat × Bool) :=
  [(g.mbase, g.metaLen, false), (g.hbase, g.f * g.hfr, false), (g.qbase, g.f * g.qfr, true), (g.sbase, g.stagingEnd, false)]

/-! ### Free sets (R432, R449) -/

/-- The `k`-th number from `n` upward that a rising list does not hold. -/
def kthFree : Nat → List Nat → Nat → Nat
  | n, [], k => n + k
  | n, x :: xs, k => if k < x - n then n + k else kthFree (x + 1) xs (k - (x - n))

/-- The lowest number below `bound` that is not taken. -/
def lowestFree (taken : List Nat) (bound : Nat) : Option Nat :=
  let n := kthFree 0 taken 0
  if n < bound then some n else none

def Splice.framesT (x : Splice) (pool : Bool) : List Nat := if pool then x.qframesT else x.hframesT
def Splice.setFramesT (x : Splice) (pool : Bool) (l : List Nat) : Splice :=
  if pool then { x with qframesT := l } else { x with hframesT := l }

def State.updSplice (s : State) (f : Splice → Splice) : State := { s with splice := f s.splice }

/-- A frame is named by a pin. -/
def Splice.pinned (x : Splice) (pool : Bool) (n : Nat) : Bool :=
  x.pins.any (fun e => e.2.any (fun q => q.pool == pool && q.frame == n))

/-- Old frames of moves that no pin names any more return to their free set (R286, R446). -/
def Splice.settle (x : Splice) : Splice :=
  let back := x.deferred.filter (fun e => !x.pinned e.1 e.2)
  back.foldl (fun y e => y.setFramesT e.1 ((y.framesT e.1).filter (fun n => n != e.2)))
    { x with deferred := x.deferred.filter (fun e => x.pinned e.1 e.2) }

/-! ### KVCFG (R427) -/

/-- The pages of the four ranges, or status 1, 2 or 4 (R427). -/
def State.spliceTranslate (s : State) (g : SpliceCfg) : Except Nat (List PageTr) :=
  let found := (spliceRanges g).map (fun r => (r.2.2, s.pagesOf (r.2.1 / 0x1000 + 2) r.1 (r.1 + r.2.1)))
  if found.any (fun r => r.2.isNone) then .error 1
  else
    let all := found.flatMap (fun r => (r.2.getD []).map (fun e => (r.1, e)))
    if all.any (fun e => !e.2.2.w || (e.2.2.pool != e.1)) then .error 2
    else if 65536 < all.length then .error 4
    else .ok (all.map (fun e => e.2.1))

/-- The initial directory, sequence headers and root (R427, R429 to R431). The LRU of the root has no stated first value. -/
def State.spliceInit (s : State) (g : SpliceCfg) : Except Nat State :=
  let entry : List Byte := leBytes 32 (noLink * 2 ^ 128)
  let dir := (List.range g.npage).flatMap (fun _ => entry)
  let (lru, s0) := s.fresh
  let root := noLink + noLink * 2 ^ 32 + noLink * 2 ^ 64 + noLink * 2 ^ 96 + lru.toNat * 2 ^ 128 + 2 ^ 192
  match s0.pagesWrite g.pages g.mbase dir with
  | .error e => .error e
  | .ok s1 => match s1.pagesWrite g.pages (g.seqAt 0) (List.replicate (64 * g.nseq) 0) with
    | .error e => .error e
    | .ok s2 => s2.pagesWrite g.pages (g.nodeAt 0) (leBytes 64 root)

/-- L of KVCFG once it translates (R427): of its four ranges, the pages found before one that is not present, and the initialising. -/
def State.spliceTime (s : State) (g : SpliceCfg) : Nat :=
  16 + 48 * ((spliceRanges g).map (fun r => s.presentPages (r.2.1 / 0x1000 + 2) r.1 (r.1 + r.2.1))).sum
    + (32 * g.npage + 64 * g.nseq + 127) / 128

/-- KVCFG on a record: the status, its L and the state, or the address of an unmapped page. -/
def State.spliceConfigure (s : State) (v : Nat) : Except Nat (Nat × Nat × State) :=
  let x := s.splice
  let g := spliceCfgOf v
  let none_ : Splice := { serial := x.serial, nhit := x.nhit, nmiss := x.nmiss }
  if !x.seqsT.isEmpty || !x.pins.isEmpty || !x.queue.isEmpty || !x.moves.isEmpty then .ok (5, 16, s)
  else if v = 0 then .ok (0, 16, { s with splice := none_ })
  else if spliceFormat v then .ok (6, 16, s)
  else if (spliceRanges g).any (fun r => decide (2 ^ 57 < r.1 + r.2.1)) then .ok (3, 16, s)
  else
    let s1 := s.walkedRanges ((spliceRanges g).map (fun r => (r.1, r.2.1)))
    match s.spliceTranslate g with
    | .error e => .ok (e, s.spliceTime g, s1)
    | .ok ps =>
      let g' := { g with pages := ps }
      match s1.spliceInit g' with
      | .error e => .error e
      | .ok t => .ok (0, s.spliceTime g, { t with splice := { none_ with cfg := some g', nodesT := [0] } })

/-- KVCFG. -/
def execKvcfg (d a : GReg) (s : State) : Out :=
  let o := (s.readG a).toNat
  onStrand s (s.needSuper (if o % 64 ≠ 0 ∨ 0x10000 ≤ o then .trap s.command
    else
      let t := s.landFor s.cur (.localMem s.cur)
      if t.bad (localBase t.cur + o) 64 then t.errorTrap (localBase t.cur + o) (meshError (w64 o))
      else match t.spliceConfigure (t.numAt (localBase t.cur + o) 64) with
      | .error pa => .fault (.unmappedPhysical pa)
      | .ok (e, lat, u) => .okWait (u.writeG d (w64 e)) lat))

/-! ### Issue (R434) -/

def State.kvIssue (s : State) (d a : GReg) (fn : Nat) (opt : Bool) : Out :=
  let o := (s.readG a).toNat
  onStrand s (match s.splice.cfg with
    | none => .trap s.command
    | some g =>
      if o % 64 ≠ 0 ∨ g.stagingEnd < o + 64 then .trap s.command
      else if 256 ≤ s.splice.queue.length then .stay (s.parkFor .queue .wait)
      else s.releasing .device (fun t =>
        let n := t.splice.serial + 1
        (t.updSplice (fun x => { x with serial := n, queue := x.queue ++
          [{ fn := fn, arg := o, opt := opt, serial := n, unit := t.cur, task := (t.core t.cur).task }] })).gives d (zx n) 4))

/-- KVMATCH. -/
def execKvmatch (d a : GReg) (p : Bool) (s : State) : Out := s.kvIssue d a 1 p
/-- KVINSERT. -/
def execKvinsert (d a : GReg) (s : State) : Out := s.kvIssue d a 2 false
/-- KVAPPEND. -/
def execKvappend (d a : GReg) (s : State) : Out := s.kvIssue d a 3 false
/-- KVREF. -/
def execKvref (d a : GReg) (s : State) : Out := s.kvIssue d a 4 false
/-- KVUNREF. -/
def execKvunref (d a : GReg) (p : Bool) (s : State) : Out := s.kvIssue d a 5 p
/-- KVPIN. -/
def execKvpin (d a : GReg) (s : State) : Out := s.kvIssue d a 6 false
/-- KVUNPIN. -/
def execKvunpin (d a : GReg) (s : State) : Out := s.kvIssue d a 7 false
/-- KVBT. -/
def execKvbt (d a : GReg) (s : State) : Out := s.kvIssue d a 8 false
/-- KVTIER. -/
def execKvtier (d a : GReg) (s : State) : Out := s.kvIssue d a 9 false

/-- The registers of R448. -/
def Splice.statReg (x : Splice) (n : Nat) : Nat :=
  let free (taken : List Nat) (total : SpliceCfg → Nat) : Nat :=
    match x.cfg with | some g => total g - taken.length | none => 0
  match n with
  | 0 => b2n x.cfg.isSome + x.queue.length * 2 + b2n x.waiting * 2 ^ 10
  | 1 => free x.hframesT (·.hfr)
  | 2 => free x.qframesT (·.qfr)
  | 3 => free x.pagesT (·.npage)
  | 4 => x.seqsT.length
  | 5 => x.nodesT.length
  | 6 => x.pins.length
  | 7 => x.serial.toNat
  | 8 => x.nhit.toNat
  | _ => x.nmiss.toNat

/-- KVSTAT (R448). -/
def execKvstat (d a : GReg) (s : State) : Out :=
  let n := (s.readG a).toNat
  onStrand s (if 9 < n then .trap s.command else s.gives d (w64 (s.splice.statReg n)) 16)

/-! ### Items of a command

A command is a sequence of items. An item gives the state and the command's progress; it stops the command with a status, or
waits on a MOVING page (R436, R437). -/

inductive KvEnd where
  | stop (s : State) (status : Nat) (val : Option Nat)
  | wait (s : State)
  | fault (pa : Nat)

abbrev Kv (α : Type) := Except KvEnd α

def kvStop {α : Type} (s : State) (status : Nat) : Kv α := .error (.stop s status none)
def kvDone {α : Type} (s : State) (val : Nat) : Kv α := .error (.stop s 1 (some val))

/-- VAL of a stop that names none (R435). -/
def kvVal {α : Type} (v : Nat) : Kv α → Kv α
  | .error (.stop s st none) => .error (.stop s st (some v))
  | r => r

/-- The item ends the command unless a condition holds. -/
def kvRequire (s : State) (ok : Bool) (status : Nat) : Kv Unit := if ok then .ok () else kvStop s status

def State.kvBytes (s : State) (g : SpliceCfg) (va n : Nat) : Kv (List Byte) :=
  match s.pagesRead g.pages va n with
  | .ok bs => .ok bs
  | .error key => kvStop (s.memError key) 0x10
  | .unmapped pa => .error (.fault pa)

def State.kvNum (s : State) (g : SpliceCfg) (va n : Nat) : Kv Nat := do
  let bs ← s.kvBytes g va n
  return leNat bs

def State.kvPutBytes (s : State) (g : SpliceCfg) (va : Nat) (bs : List Byte) : Kv State :=
  match s.pagesWrite g.pages va bs with
  | .ok t => .ok t
  | .error pa => .error (.fault pa)

def State.kvPut (s : State) (g : SpliceCfg) (va n v : Nat) : Kv State := s.kvPutBytes g va (leBytes n v)

/-! #### Directory entries (R429, R432) -/

/-- A field of a number replaced. -/
def putField (v lo n x : Nat) : Nat := v - nf v lo n * 2 ^ lo + x % 2 ^ n * 2 ^ lo

/-- A directory entry as read. -/
structure Dir where
  raw : Nat
deriving DecidableEq, Repr

namespace Dir
def st (d : Dir) : Nat := nf d.raw 0 2
def tier (d : Dir) : Bool := nb d.raw 2
def tree (d : Dir) : Bool := nb d.raw 3
def frame (d : Dir) : Nat := nf d.raw 32 31
def ref (d : Dir) : Nat := nf d.raw 64 32
def pins (d : Dir) : Nat := nf d.raw 96 32
def setSt (d : Dir) (v : Nat) : Dir := ⟨putField d.raw 0 2 v⟩
def setTier (d : Dir) (v : Bool) : Dir := ⟨putField d.raw 2 1 (b2n v)⟩
def setFrame (d : Dir) (v : Nat) : Dir := ⟨putField d.raw 32 31 v⟩
def setRef (d : Dir) (v : Nat) : Dir := ⟨putField d.raw 64 32 v⟩
def setPins (d : Dir) (v : Nat) : Dir := ⟨putField d.raw 96 32 v⟩
/-- TREE and NODE. -/
def setNode (d : Dir) (n : Option Nat) : Dir := ⟨putField (putField d.raw 3 1 (b2n n.isSome)) 128 32 (n.getD noLink)⟩
end Dir

/-- The entry of a page number in range. -/
def State.kvDir (s : State) (g : SpliceCfg) (n : Nat) : Kv Dir := do
  kvRequire s (decide (n < g.npage)) 0x10
  let v ← s.kvNum g (g.dirAt n) 32
  kvRequire s (decide (nf v 32 31 < g.frames (nb v 2))) 0x10
  return ⟨v⟩

/-- The same at a step that needs the page: it waits while the page is MOVING (R437). -/
def State.kvNeed (s : State) (g : SpliceCfg) (n : Nat) : Kv Dir := do
  let d ← s.kvDir g n
  if d.st = 2 then .error (.wait s) else return d

def State.kvSetDir (s : State) (g : SpliceCfg) (n : Nat) (d : Dir) : Kv State := s.kvPut g (g.dirAt n) 32 d.raw

/-- The page goes to FREE: its number and its frame return to the free sets (R432). -/
def State.freePage (s : State) (n : Nat) (d : Dir) : State :=
  s.updSplice (fun x => { x.setFramesT d.tier ((x.framesT d.tier).filter (fun k => k != d.frame)) with
    pagesT := x.pagesT.filter (fun k => k != n) })

/-- REF reaches 0 (R432). -/
def State.kvRefZero (s : State) (g : SpliceCfg) (n : Nat) (d : Dir) : Kv State :=
  if d.pins = 0 then (s.freePage n d).kvSetDir g n ((d.setRef 0).setSt 0)
  else s.kvSetDir g n ((d.setRef 0).setSt 3)

/-- One fewer in REF, and whether it reached 0 (R432). -/
def State.kvDropRef (s : State) (g : SpliceCfg) (n : Nat) (d : Dir) : Kv (State × Bool) := do
  kvRequire s (decide (d.ref ≠ 0)) 0x10
  if d.ref = 1 then
    let t ← s.kvRefZero g n d
    return (t, true)
  else
    let t ← s.kvSetDir g n (d.setRef (d.ref - 1))
    return (t, false)

/-- One fewer in PINS; a DYING page without pins goes to FREE (R432, R445). -/
def State.kvDropPin (s : State) (g : SpliceCfg) (n : Nat) (d : Dir) : Kv State := do
  kvRequire s (decide (d.pins ≠ 0)) 0x10
  let d1 := d.setPins (d.pins - 1)
  if d1.pins = 0 ∧ d.st = 3 then (s.freePage n d).kvSetDir g n (d1.setSt 0) else s.kvSetDir g n d1

/-- Allocation of a page in HBM (R432). -/
def State.kvAlloc (s : State) (g : SpliceCfg) : Kv (Nat × State) :=
  match lowestFree s.splice.pagesT g.npage, lowestFree s.splice.hframesT g.hfr with
  | some n, some k => do
    let t := s.updSplice (fun x => { x with pagesT := insertRising n x.pagesT, hframesT := insertRising k x.hframesT })
    let u ← t.kvPut g (g.dirAt n) 32 (1 + k * 2 ^ 32 + 2 ^ 64 + noLink * 2 ^ 128)
    return (n, u)
  | _, _ => kvStop s 0x16

/-! #### Sequences (R430) -/

/-- LEN and NPG of a LIVE sequence. -/
def State.kvLive (s : State) (g : SpliceCfg) (q : Nat) : Kv (Nat × Nat) := do
  kvRequire s (decide (q < g.nseq)) 0x21
  let h ← s.kvNum g (g.seqAt q) 16
  kvRequire s (decide (nf h 0 2 ≠ 0)) 0x21
  kvRequire s (decide (nf h 0 2 = 1) && decide (nf h 32 25 ≤ 2 ^ 24) && decide (nf h 64 21 ≤ g.maxp)) 0x10
  return (nf h 32 25, nf h 64 21)

/-- The header of a LIVE sequence. -/
def State.kvSetHead (s : State) (g : SpliceCfg) (q len npg : Nat) : Kv State :=
  s.kvPut g (g.seqAt q) 64 (1 + len * 2 ^ 32 + npg * 2 ^ 64)

/-- Block-table entry `i`. -/
def State.kvBt (s : State) (g : SpliceCfg) (q i : Nat) : Kv Nat := do
  let n ← s.kvNum g (g.btAt q i) 4
  kvRequire s (decide (n < g.npage)) 0x10
  return n

/-- The lowest FREE sequence, taken. -/
def State.kvTakeSeq (s : State) (g : SpliceCfg) : Kv (Nat × State) :=
  match lowestFree s.splice.seqsT g.nseq with
  | some q => .ok (q, s.updSplice (fun x => { x with seqsT := insertRising q x.seqsT }))
  | none => kvStop s 0x20

/-! #### Nodes (R431) -/

/-- Nodes that the node cache holds. -/
def SpliceCfg.cached (g : SpliceCfg) : Nat := 0x800000 / g.nsz

/-- A node is looked up in the node cache. -/
def State.touchNode (s : State) (g : SpliceCfg) (n : Nat) : State :=
  s.updSplice (fun x =>
    let inc (v : W64) : W64 := if v = BitVec.allOnes 64 then v else v + 1
    let y := if x.ncache.contains n then { x with nhit := inc x.nhit } else { x with nmiss := inc x.nmiss }
    { y with ncache := (n :: x.ncache.filter (fun k => k != n)).take g.cached })

/-- A link: none, or a node number in range. -/
def kvLink (s : State) (g : SpliceCfg) (v : Nat) : Kv (Option Nat) :=
  if v = noLink then .ok none else if v < g.nodes then .ok (some v) else kvStop s 0x10

/-- The children from a link on, in order. A chain longer than the number of nodes is a loop that stores made: MEMERR. -/
def State.kvChain (s : State) (g : SpliceCfg) : Nat → Nat → Kv (List Nat)
  | 0, _ => kvStop s 0x10
  | fuel + 1, v => do
    match ← kvLink s g v with
    | none => return []
    | some n =>
      let next ← s.kvNum g (g.nodeAt n + 12) 4
      let rest ← s.kvChain g fuel next
      return n :: rest

def State.kvChildren (s : State) (g : SpliceCfg) (n : Nat) : Kv (List Nat) := do
  let first ← s.kvNum g (g.nodeAt n + 8) 4
  s.kvChain g (g.nodes + 1) first

/-- The node among a list whose KEY is `key`; each one compared is looked up in the node cache. -/
def State.kvKeyed (s : State) (g : SpliceCfg) (key : Nat) : List Nat → Kv (Option Nat × State)
  | [] => .ok (none, s)
  | n :: ns => do
    let k ← s.kvNum g (g.nodeAt n + 64) (4 * g.p)
    let t := s.touchNode g n
    if k = key then return (some n, t) else t.kvKeyed g key ns

/-- The child of a node with a key. -/
def State.kvChild (s : State) (g : SpliceCfg) (n key : Nat) : Kv (Option Nat × State) := do
  let cs ← s.kvChildren g n
  s.kvKeyed g key cs

/-- Key `i` of the token IDs of a command. -/
def State.kvKey (s : State) (g : SpliceCfg) (c : SpliceCmd) (i : Nat) : Kv Nat :=
  s.kvNum g (g.sbase + c.arg + 64 + 4 * g.p * i) (4 * g.p)

/-- The child of node `n` for page `i` of the token IDs of a command. -/
def State.kvStep (s : State) (g : SpliceCfg) (c : SpliceCmd) (i n : Nat) : Kv (Option Nat × State) := do
  let key ← s.kvKey g c i
  s.kvChild g n key

/-- The walk of R439: the nodes passed, at most `fuel`; an error in it leaves the pages matched so far. -/
def State.kvWalk (s : State) (g : SpliceCfg) (c : SpliceCmd) : Nat → Nat → Nat → Kv (List Nat × State)
  | 0, _, _ => .ok ([], s)
  | fuel + 1, i, n => do
    match ← kvVal i (s.kvStep g c i n) with
    | (none, t) => return ([], t)
    | (some m, t) =>
      let (rest, u) ← t.kvWalk g c fuel (i + 1) m
      return (m :: rest, u)

/-! #### Argument blocks (R435) -/

/-- Doubleword `i` of the argument block. -/
def State.kvArg (s : State) (g : SpliceCfg) (c : SpliceCmd) (i : Nat) : Kv Nat := s.kvNum g (g.sbase + c.arg + 8 * i) 8

/-- `n` bytes at +64 lie within the staging area. -/
def kvRoom (s : State) (g : SpliceCfg) (c : SpliceCmd) (n : Nat) : Kv Unit :=
  kvRequire s (decide (c.arg + 64 + n ≤ g.stagingEnd)) 0x15

/-- `n` bytes written at +64 + `o`. -/
def State.kvOut (s : State) (g : SpliceCfg) (c : SpliceCmd) (o n v : Nat) : Kv State := s.kvPut g (g.sbase + c.arg + 64 + o) n v

/-- Parameter bits from `lo` upward are zero. -/
def kvZero (s : State) (v lo : Nat) : Kv Unit := kvRequire s (decide (v < 2 ^ lo)) 0x15

def SpliceCmd.next (c : SpliceCmd) : SpliceCmd := { c with step := c.step + 1 }
def SpliceCmd.argN (c : SpliceCmd) (i : Nat) : Nat := nth 0 c.args i

/-! ### The commands -/

/-- KVMATCH (R439): the walk, then one item for each page matched. -/
def kvMatchItem (g : SpliceCfg) (s : State) (c : SpliceCmd) : Kv (State × SpliceCmd) :=
  if c.step = 0 then do
    let d1 ← s.kvArg g c 1
    kvZero s d1 25
    kvRequire s (decide (1 ≤ d1) && decide (d1 ≤ 2 ^ 24)) 0x15
    kvRoom s g c (4 * d1)
    let (path, t) ← s.kvWalk g c (min (d1 / g.p) g.maxp) 0 0
    if c.opt then kvDone t path.length
    else
      let (q, u) ← kvVal path.length (t.kvTakeSeq g)
      let v ← u.kvSetHead g q (path.length * g.p) path.length
      return (v, { c.next with acc1 := q, args := path })
  else
    let i := c.step - 1
    if i < c.args.length then do
      let n := c.argN i
      let page ← s.kvNum g (g.nodeAt n + 4) 4
      let d ← s.kvNeed g page
      let s1 ← s.kvPut g (g.btAt c.acc1 i) 4 page
      let s2 ← s1.kvSetDir g page (d.setRef (d.ref + 1))
      let s3 ← s2.kvPut g (g.nodeAt n + 16) 8 c.serial.toNat
      return (s3, c.next)
    else do
      let t ← s.kvPut g (g.sbase + c.arg + 16) 8 c.acc1
      kvDone t c.args.length

/-- A child of node `n` for page `page` is created (R440); which free slot it takes and where it stands among its siblings is not
stated. -/
def State.kvCreate (s : State) (g : SpliceCfg) (n page key serial : Nat) : Kv (Nat × State) := do
  let cs ← s.kvChildren g n
  let (f1, s1) := s.fresh
  let (f2, s2) := s1.fresh
  let m := kthFree 0 s.splice.nodesT (f1.toNat % (g.nodes - s.splice.nodesT.length))
  let j := f2.toNat % (cs.length + 1)
  let s3 := s2.updSplice (fun x => { x with nodesT := insertRising m x.nodesT })
  let head := n + page * 2 ^ 32 + noLink * 2 ^ 64 + nth noLink cs j * 2 ^ 96 + serial * 2 ^ 128 + 2 ^ 192
  let s4 ← s3.kvPut g (g.nodeAt m) 64 head
  let s5 ← s4.kvPut g (g.nodeAt m + 64) (4 * g.p) key
  let s6 ← s5.kvPut g (if j = 0 then g.nodeAt n + 8 else g.nodeAt (nth 0 cs (j - 1)) + 12) 4 m
  return (m, s6)

/-- KVINSERT (R440): args are S and N; `cur` is the node reached and acc1 the number of nodes created. A page that the tree lacks
takes two items: its key is compared once, and the page stands third in args while its node is created (R437). -/
def kvInsertItem (g : SpliceCfg) (s : State) (c : SpliceCmd) : Kv (State × SpliceCmd) :=
  if c.step = 0 then do
    let d1 ← s.kvArg g c 1
    kvZero s d1 57
    let q := nf d1 0 32
    let n := nf d1 32 25
    let (len, _) ← s.kvLive g q
    kvRequire s (decide (n ≤ len)) 0x15
    kvRoom s g c (4 * n)
    return (s, { c.next with args := [q, n] })
  else
    let i := c.step - 1
    match c.args with
    | [q, n, page] => do
      let d ← s.kvNeed g page
      let key ← s.kvKey g c i
      let (m, u) ← s.kvCreate g c.cur page key c.serial.toNat
      let v ← u.kvSetDir g page ((d.setNode (some m)).setRef (d.ref + 1))
      return (v, { c.next with args := [q, n], cur := m, acc1 := c.acc1 + 1 })
    | _ =>
      if i < c.argN 1 / g.p then do
        let key ← s.kvKey g c i
        match ← s.kvChild g c.cur key with
        | (some m, t) =>
          let u ← t.kvPut g (g.nodeAt m + 16) 8 c.serial.toNat
          return (u, { c.next with cur := m })
        | (none, t) =>
          let page ← t.kvBt g (c.argN 0) i
          let d ← t.kvDir g page
          kvRequire t (!d.tree) 0x15
          kvRequire t (decide (t.splice.nodesT.length < g.nodes)) 0x23
          return (t, { c with args := [c.argN 0, c.argN 1, page] })
      else kvDone s c.acc1

/-- The page that an append writes: allocated, copied, or the last page as it stands (R441, R75). -/
def kvAppendPage (g : SpliceCfg) (s : State) (c : SpliceCmd) (q t : Nat) : Kv (State × SpliceCmd) :=
  let i := t / g.p
  if t % g.p = 0 then do
    let (n, u) ← s.kvAlloc g
    let v ← u.kvPut g (g.btAt q i) 4 n
    return (v, { c.next with acc2 := c.acc2 + 1 })
  else do
    let n ← s.kvBt g q i
    let d ← s.kvNeed g n
    if 1 < d.ref then
      let (m, u) ← s.kvAlloc g
      let d' ← u.kvDir g m
      let bs ← u.kvBytes g (g.frameAt d.tier d.frame) g.f
      let s1 ← u.kvPutBytes g (g.frameAt false d'.frame) bs
      let s2 ← s1.kvSetDir g n (d.setRef (d.ref - 1))
      let s3 ← s2.kvPut g (g.btAt q i) 4 m
      return (s3, { c.next with acc1 := c.acc1 + 1 })
    else
      kvRequire s (!d.tier) 0x22
      return (s, c.next)

/-- KVAPPEND (R441): args are S and K, `cur` is LEN before; two items for each record, its page and its write. acc1 counts pages
copied, acc2 pages added. -/
def kvAppendItem (g : SpliceCfg) (s : State) (c : SpliceCmd) : Kv (State × SpliceCmd) :=
  if c.step = 0 then do
    let d1 ← s.kvArg g c 1
    kvZero s d1 57
    let q := nf d1 0 32
    let k := nf d1 32 25
    kvRequire s (decide (1 ≤ k)) 0x15
    let (len, _) ← s.kvLive g q
    kvRequire s (decide (len + k ≤ 2 ^ 24) && decide (g.pagesFor (len + k) ≤ g.maxp)) 0x15
    kvRoom s g c (k * g.rs)
    return (s, { c.next with args := [q, k], cur := len })
  else
    let j := (c.step - 1) / 2
    let q := c.argN 0
    let t := c.cur + j
    if c.argN 1 ≤ j then kvDone s t
    else if c.step % 2 = 1 then kvAppendPage g s c q t
    else do
      let n ← s.kvBt g q (t / g.p)
      let d ← s.kvNeed g n
      let bs ← s.kvBytes g (g.sbase + c.arg + 64 + j * g.rs) g.rs
      let s1 ← s.kvPutBytes g (g.frameAt d.tier d.frame + t % g.p * g.rs) bs
      let s2 ← s1.kvSetHead g q (t + 1) (t / g.p + 1)
      return (s2, c.next)

/-- KVREF (R442): args are S, S′ and NPG. -/
def kvRefItem (g : SpliceCfg) (s : State) (c : SpliceCmd) : Kv (State × SpliceCmd) :=
  if c.step = 0 then do
    let d1 ← s.kvArg g c 1
    kvZero s d1 32
    let (len, npg) ← s.kvLive g d1
    let (q, t) ← s.kvTakeSeq g
    let u ← t.kvSetHead g q len npg
    return (u, { c.next with args := [d1, q, npg] })
  else
    let i := c.step - 1
    if i < c.argN 2 then do
      let n ← s.kvBt g (c.argN 0) i
      let d ← s.kvNeed g n
      let t ← s.kvPut g (g.btAt (c.argN 1) i) 4 n
      let u ← t.kvSetDir g n (d.setRef (d.ref + 1))
      return (u, c.next)
    else kvDone s (c.argN 1)

/-- KVUNREF without prune (R443): args are S and NPG, acc1 counts the pages whose REF reached 0. -/
def kvUnrefItem (g : SpliceCfg) (s : State) (c : SpliceCmd) : Kv (State × SpliceCmd) :=
  if c.step = 0 then do
    let d1 ← s.kvArg g c 1
    kvZero s d1 32
    let (_, npg) ← s.kvLive g d1
    return (s, { c.next with args := [d1, npg] })
  else
    let i := c.step - 1
    if i < c.argN 1 then do
      let n ← s.kvBt g (c.argN 0) i
      let d ← s.kvNeed g n
      let (t, z) ← s.kvDropRef g n d
      return (t, { c.next with acc1 := c.acc1 + b2n z })
    else do
      let q := c.argN 0
      let h ← s.kvNum g (g.seqAt q) 8
      let t ← s.kvPut g (g.seqAt q) 8 (putField h 0 2 0)
      kvDone (t.updSplice (fun x => { x with seqsT := x.seqsT.filter (fun k => k != q) })) c.acc1

/-- The leaf that prune takes next: least LRU, then least number, among those whose page has REF = 1 (R443). -/
def State.kvLeaf (s : State) (g : SpliceCfg) : List Nat → Option (Nat × Nat × Nat) → Kv (Option (Nat × Nat × Nat))
  | [], best => .ok best
  | n :: ns, best => do
    if n = 0 then s.kvLeaf g ns best
    else
      let h ← s.kvNum g (g.nodeAt n) 64
      let child ← kvLink s g (nf h 64 32)
      if child.isSome then s.kvLeaf g ns best
      else
        let d ← s.kvDir g (nf h 32 32)
        let lru := nf h 128 64
        let better := match best with | none => true | some b => decide (lru < b.1)
        s.kvLeaf g ns (if decide (d.ref = 1) && better then some (lru, n, nf h 32 32) else best)

/-- A leaf is taken out of its parent's list of children. -/
def State.kvUnlink (s : State) (g : SpliceCfg) (n : Nat) : Kv State := do
  let parent ← s.kvNum g (g.nodeAt n) 4
  kvRequire s (decide (parent < g.nodes)) 0x10
  let cs ← s.kvChildren g parent
  match findIdx (fun k => k == n) cs with
  | none => kvStop s 0x10
  | some j =>
    let next ← s.kvNum g (g.nodeAt n + 12) 4
    s.kvPut g (if j = 0 then g.nodeAt parent + 8 else g.nodeAt (nth 0 cs (j - 1)) + 12) 4 next

/-- KVUNREF with prune (R443): args hold n, acc1 counts the nodes removed. -/
def kvPruneItem (g : SpliceCfg) (s : State) (c : SpliceCmd) : Kv (State × SpliceCmd) :=
  if c.step = 0 then do
    let d1 ← s.kvArg g c 1
    kvZero s d1 32
    return (s, { c.next with args := [d1] })
  else if c.argN 0 ≤ c.acc1 then kvDone s c.acc1
  else do
    match ← s.kvLeaf g s.splice.nodesT none with
    | none => kvDone s c.acc1
    | some (_, n, page) =>
      let d ← s.kvNeed g page
      let t ← (s.touchNode g n).kvUnlink g n
      let v ← t.kvNum g (g.nodeAt n + 24) 8
      let t1 ← t.kvPut g (g.nodeAt n + 24) 8 (putField v 0 1 0)
      let t2 := t1.updSplice (fun x => { x with nodesT := x.nodesT.filter (fun k => k != n) })
      let t3 ← t2.kvRefZero g page (d.setNode none)
      return (t3, { c.next with acc1 := c.acc1 + 1 })

/-- One more in PINS of a page, noted in a pin-table entry (R444). -/
def State.kvAddPin (s : State) (g : SpliceCfg) (id n : Nat) (d : Dir) : Kv State := do
  let t := s.updSplice (fun x => { x with pins := mset [] x.pins id (mget [] x.pins id ++ [⟨n, d.tier, d.frame⟩]) })
  t.kvSetDir g n (d.setPins (d.pins + 1))

/-- The lowest free entry of the pin table (R444). -/
def State.freePin (s : State) : Option Nat := lowestFree (s.splice.pins.map (·.1)) 4096

/-- KVPIN (R444): args are S, the first and the last logical page and the pin id, whose entry is held from the first item on. -/
def kvPinItem (g : SpliceCfg) (s : State) (c : SpliceCmd) : Kv (State × SpliceCmd) :=
  if c.step = 0 then do
    let d1 ← s.kvArg g c 1
    let d2 ← s.kvArg g c 2
    kvZero s d1 32
    kvZero s d2 49
    let t0 := nf d2 0 24
    let m := nf d2 24 25
    kvRequire s (decide (1 ≤ m)) 0x15
    let (len, _) ← s.kvLive g d1
    kvRequire s (decide (t0 + m ≤ len)) 0x15
    let first := t0 / g.p
    let last := (t0 + m - 1) / g.p
    kvRoom s g c (8 * (last - first + 1))
    match s.freePin with
    | none => kvStop s 0x24
    | some id =>
      return (s.updSplice (fun x => { x with pins := mins (merase x.pins id) id [] }), { c.next with args := [d1, first, last, id] })
  else
    let i := c.argN 1 + (c.step - 1)
    if i ≤ c.argN 2 then do
      let n ← s.kvBt g (c.argN 0) i
      let d ← s.kvNeed g n
      let t ← s.kvAddPin g (c.argN 3) n d
      let u ← t.kvOut g c (8 * (c.step - 1)) 8 (n + b2n d.tier * 2 ^ 32 + d.frame * 2 ^ 33)
      return (u, c.next)
    else kvDone s (c.argN 3)

/-- KVUNPIN (R445): args hold the pin id; one item for each page that it holds. -/
def kvUnpinItem (g : SpliceCfg) (s : State) (c : SpliceCmd) : Kv (State × SpliceCmd) :=
  if c.step = 0 then do
    let d1 ← s.kvArg g c 1
    kvZero s d1 12
    kvRequire s (s.splice.pins.any (fun e => e.1 == d1)) 0x15
    return (s, { c.next with args := [d1] })
  else
    match mget [] s.splice.pins (c.argN 0) with
    | [] => kvDone (s.updSplice (fun y => { y with pins := merase y.pins (c.argN 0) })) 0
    | x :: rest => do
      let d ← s.kvNeed g x.page
      let t := s.updSplice (fun y => ({ y with pins := mins (merase y.pins (c.argN 0)) (c.argN 0) rest }).settle)
      let u ← t.kvDropPin g x.page d
      return (u, c.next)

/-- KVBT (R447): args are S, FP, the number of entries and LEN. -/
def kvBtItem (g : SpliceCfg) (s : State) (c : SpliceCmd) : Kv (State × SpliceCmd) :=
  if c.step = 0 then do
    let d1 ← s.kvArg g c 1
    let d2 ← s.kvArg g c 2
    kvZero s d1 56
    kvZero s d2 32
    let q := nf d1 0 32
    let (len, npg) ← s.kvLive g q
    kvRequire s (decide (d2 ≤ npg)) 0x15
    let k := min (nf d1 32 24) (npg - d2)
    kvRoom s g c (8 * k)
    return (s, { c.next with args := [q, d2, k, len] })
  else
    let j := c.step - 1
    if j < c.argN 2 then do
      let n ← s.kvBt g (c.argN 0) (c.argN 1 + j)
      let d ← s.kvNeed g n
      let t ← s.kvOut g c (8 * j) 8 (n + b2n d.tier * 2 ^ 32 + b2n d.tree * 2 ^ 33 + min d.ref 0xFFFFFF * 2 ^ 40)
      return (t, c.next)
    else kvDone s (c.argN 3)

/-- Pages of S whose tier is POOL, among `n` from entry `i` on. -/
def State.kvPoolPages (s : State) (g : SpliceCfg) (q : Nat) : Nat → Nat → Kv Nat
  | 0, _ => .ok 0
  | n + 1, i => do
    let page ← s.kvBt g q i
    let d ← s.kvDir g page
    let rest ← s.kvPoolPages g q n (i + 1)
    return b2n d.tier + rest

/-- KVTIER (R447): args are S and NPG; acc1 counts the pages listed. -/
def kvTierItem (g : SpliceCfg) (s : State) (c : SpliceCmd) : Kv (State × SpliceCmd) :=
  if c.step = 0 then do
    let d1 ← s.kvArg g c 1
    kvZero s d1 32
    let (_, npg) ← s.kvLive g d1
    let k ← s.kvPoolPages g d1 npg 0
    kvRoom s g c (4 * k)
    return (s, { c.next with args := [d1, npg] })
  else
    let i := c.step - 1
    if i < c.argN 1 then do
      let n ← s.kvBt g (c.argN 0) i
      let d ← s.kvNeed g n
      if d.tier then
        kvRoom s g c (4 * (c.acc1 + 1))
        let t ← s.kvOut g c (4 * c.acc1) 4 i
        return (t, { c.next with acc1 := c.acc1 + 1 })
      else return (s, c.next)
    else kvDone s c.acc1

/-- One item of a command. -/
def kvItem (g : SpliceCfg) (s : State) (c : SpliceCmd) : Kv (State × SpliceCmd) :=
  match c.fn with
  | 1 => kvMatchItem g s c
  | 2 => kvInsertItem g s c
  | 3 => kvAppendItem g s c
  | 4 => kvRefItem g s c
  | 5 => if c.opt then kvPruneItem g s c else kvUnrefItem g s c
  | 6 => kvPinItem g s c
  | 7 => kvUnpinItem g s c
  | 8 => kvBtItem g s c
  | _ => kvTierItem g s c

/-! ### Execution (R435 to R437) -/

/-- LEN of the sequence that doubleword 1 names, if it is LIVE. -/
def State.liveLen (s : State) (g : SpliceCfg) (c : SpliceCmd) : Option Nat :=
  match (do let d1 ← s.kvArg g c 1
            let h ← s.kvLive g (nf d1 0 32)
            return h.1 : Kv Nat) with
  | .ok len => some len
  | .error _ => none

/-- VAL of a command that stops with a fault, where R435 gives one: the counts of KVMATCH, KVINSERT, KVUNREF and KVTIER, which are 0
at first, 0 of KVUNPIN, LEN of KVAPPEND and KVBT where S is LIVE, and once it is taken S′ of KVREF and the pin id of KVPIN (R439 to R447; log
entry 68). -/
def State.stopVal (s : State) (g : SpliceCfg) (c : SpliceCmd) : Option Nat :=
  match c.fn with
  | 1 => some c.args.length
  | 2 | 5 | 9 => some c.acc1
  | 7 => some 0
  | 3 => if c.step = 0 then s.liveLen g c else some (c.cur + (c.step - 1) / 2)
  | 4 => if c.step = 0 then none else some (c.argN 1)
  | 6 => if c.step = 0 then none else some (c.argN 3)
  | 8 => if c.step = 0 then s.liveLen g c else some (c.argN 3)
  | _ => none

/-- The end of a command: an append's counts, then the completion word, last (R435, R441). VAL has no stated value where the
command stops before its rule gives one. -/
def State.kvFinish (s : State) (g : SpliceCfg) (c : SpliceCmd) (status : Nat) (val : Option Nat) : Out :=
  let v : Nat × State := match val, s.stopVal g c with
    | some v, _ => (v, s)
    | none, some v => (v, s)
    | none, none => (s.fresh.1.toNat, s.fresh.2)
  let r := if c.fn = 3 ∧ c.step ≠ 0 then v.2.pagesWrite g.pages (g.sbase + c.arg + 16) (leBytes 8 (c.acc1 + c.acc2 * 2 ^ 32))
    else .ok v.2
  match r with
  | .error pa => .fault (.unmappedPhysical pa)
  | .ok t =>
    match t.pagesWrite g.pages (g.sbase + c.arg)
        (leBytes 8 (status + nf c.serial.toNat 0 24 * 2 ^ 8 + v.1 % 2 ^ 32 * 2 ^ 32)) with
    | .error pa => .fault (.unmappedPhysical pa)
    | .ok u => .next ((u.updSplice (fun x => { x with queue := x.queue.tail, waiting := false })).wakeQueues)

/-- Items until the command ends or waits. -/
def kvRun (g : SpliceCfg) : Nat → State → SpliceCmd → Out
  | 0, s, _ => .next s
  | fuel + 1, s, c =>
    match kvItem g s c with
    | .ok (t, c') => kvRun g fuel t c'
    | .error (.stop t status val) => t.kvFinish g c status val
    | .error (.wait t) => .next (t.updSplice (fun x => { x with waiting := true, queue := c :: x.queue.tail }))
    | .error (.fault pa) => .fault (.unmappedPhysical pa)

/-- More than the items of any command: twice the largest number of records, nodes or pages. -/
def kvFuel : Nat := 2 ^ 34

/-- The head command runs. -/
def State.kvHead (s : State) : Out :=
  match s.splice.cfg, s.splice.queue with
  | some g, c :: _ => kvRun g kvFuel s c
  | _, _ => .next s

/-- A pin or frame request stands at the head of a channel and can be served (R437, R445). -/
def CopyCmd.servable (x : CopyCmd) (s : State) : Bool :=
  decide (x.phase = .request) && (x.moving || s.freePin.isSome)

def State.requestWaits (s : State) : Bool :=
  s.clusters.any (fun e => e.2.chans.any (fun k => match k.2.queue with | [] => false | x :: _ => x.servable s))

/-- SPLICE_COMMAND_EXECUTE: requests are served ahead of the queued commands (R437). -/
def execSpliceCommandExecute (s : State) : Out :=
  if s.splice.waiting || s.requestWaits then .next s else s.kvHead

/-- SPLICE_MOVING_RESUME: the head command goes on from the step at which it waits (R437). -/
def execSpliceMovingResume (s : State) : Out := if s.splice.waiting then s.kvHead else .next s

/-! ### Requests of the copy unit (R284, R286, R437, R444 to R446) -/

/-- Pins for the logical pages `i`, `i + 1`, … of a sequence. -/
def State.kvPinPages (s : State) (g : SpliceCfg) (id q : Nat) : Nat → Nat → Kv State
  | 0, _ => .ok s
  | n + 1, i => do
    let page ← s.kvBt g q i
    let d ← s.kvDir g page
    let t ← s.kvAddPin g id page d
    t.kvPinPages g id q n (i + 1)

/-- The head of a channel queue replaced. -/
def State.setHeadCmd (s : State) (cl ch : Nat) (c : CopyCmd) : State :=
  let x := s.chan cl ch
  s.setChan cl ch { x with queue := c :: x.queue.tail }

/-- The command ends with a status. -/
def CopyCmd.ends (c : CopyCmd) (status count : Nat) : CopyCmd := { c with phase := .ended, status := status, count := count }

/-- What a gather's request finds: an end with a status, no free pin, or its pins. -/
def State.gatherPins (s : State) (g : SpliceCfg) (c : CopyCmd) : Kv (Option (State × Nat)) := do
  let t0 := nf (c.reg 3) 0 24
  let m := nf (c.reg 3) 24 25
  let q := nf (c.reg 0) 0 32
  match s.kvLive g q with
  | .error (.stop t st _) => kvStop t (if st = 0x21 then 0x15 else st)
  | .error e => .error e
  | .ok (len, _) =>
    kvRequire s (decide (t0 + m ≤ len)) 0x15
    match s.freePin with
    | none => return none
    | some id =>
      kvRequire s (decide (nf (c.reg 4) 0 16 + nf (c.reg 4) 16 16 ≤ g.rs)) 0x15
      let t ← s.kvPinPages g id q ((t0 + m - 1) / g.p - t0 / g.p + 1) (t0 / g.p)
      return some (t, id)

/-- A gather's request (R284). Its pin id, plus one, stands in `place` while it holds pins. -/
def State.servePins (s : State) (cl ch : Nat) (c : CopyCmd) : Out :=
  match s.splice.cfg with
  | none => .next (s.setHeadCmd cl ch (c.ends 0x15 0))
  | some g => match s.gatherPins g c with
    | .error (.stop t st _) => .next ({ s with mgmt := t.mgmt }.setHeadCmd cl ch (c.ends st 0))
    | .error (.wait _) => .next s
    | .error (.fault pa) => .fault (.unmappedPhysical pa)
    | .ok none => .next s
    | .ok (some (t, id)) =>
      .next (t.setHeadCmd cl ch { c with phase := .running, place := id + 1, pins := mget [] t.splice.pins id })

/-- A move's request: steps 1 to 3 of R286. -/
def State.moveFrame (s : State) (g : SpliceCfg) (cl ch : Nat) (c : CopyCmd) : Kv State := do
  let page := nf c.opnd.toNat 0 32
  let toPool := decide (c.fn = 0x19)
  kvRequire s (decide (page < g.npage)) 0x15
  let d ← s.kvDir g page
  kvRequire s (decide (d.st = 1)) 0x15
  kvRequire s (decide (d.tier ≠ toPool)) 4
  match lowestFree (s.splice.framesT toPool) (g.frames toPool) with
  | none => kvStop s 0x16
  | some n =>
    let t := s.updSplice (fun x => { x.setFramesT toPool (insertRising n (x.framesT toPool)) with
      moves := x.moves ++ [⟨page, toPool, n, d.frame, cl, ch⟩] })
    let u ← t.kvSetDir g page (d.setSt 2)
    return u.setHeadCmd cl ch { c with phase := .running, place := page, frames := some (n, d.frame) }

/-- A frame request; one that is served after KVCFG has unconfigured the engine ends with RANGE (R286, R427; log entry 100). -/
def State.serveMove (s : State) (cl ch : Nat) (c : CopyCmd) : Out :=
  match s.splice.cfg with
  | none => .next (s.setHeadCmd cl ch (c.ends 0x15 0))
  | some g => match s.moveFrame g cl ch c with
    | .error (.stop t st _) => .next (t.setHeadCmd cl ch (c.ends st 0))
    | .error (.wait _) => .next s
    | .error (.fault pa) => .fault (.unmappedPhysical pa)
    | .ok t => .next t

/-- PIN_REQUEST: the request at the head of a channel is served at a boundary between commands (R437). -/
def execPinRequest (cl ch : Nat) (s : State) : Out :=
  match (s.chan cl ch).queue with
  | [] => .next s
  | c :: _ =>
    if s.splice.waiting || decide (c.phase ≠ .request) then .next s
    else if c.moving then s.serveMove cl ch c
    else s.servePins cl ch c

/-- The pins of a gather are released (R284, R445). -/
def State.releasePins (s : State) (id : Nat) : Out :=
  match s.splice.cfg with
  | none => .next s
  | some g =>
    let pins := mget [] s.splice.pins id
    let s1 := s.updSplice (fun y => ({ y with pins := merase y.pins id }).settle)
    pins.foldl (fun (o : Out) x => match o with
      | .next t =>
        match (do let d ← t.kvDir g x.page
                  t.kvDropPin g x.page d : Kv State) with
        | .ok u => .next u
        | .error (.fault pa) => .fault (.unmappedPhysical pa)
        | .error _ => .next t
      | r => r) (.next s1)

/-- The end of a move that `moved` or failed: step 5, and the frame that it leaves goes back (R286, R446). -/
def State.endMove (s : State) (cl ch : Nat) (moved : Bool) : Out :=
  match s.splice.cfg, s.splice.moves.find? (fun m => m.cl == cl && m.ch == ch) with
  | some g, some m =>
    let s1 := s.updSplice (fun x => ({ x with
      moves := x.moves.filter (fun k => !(k.cl == cl && k.ch == ch))
      deferred := x.deferred ++ [if moved then (!m.toPool, m.old) else (m.toPool, m.frame)] }).settle)
    match (do let d ← s1.kvDir g m.page
              s1.kvSetDir g m.page (if moved then ((d.setFrame m.frame).setTier m.toPool).setSt 1 else d.setSt 1) : Kv State) with
    | .ok u => .next u
    | .error (.fault pa) => .fault (.unmappedPhysical pa)
    | .error _ => .next s1
  | _, _ => .next s

end Sys2Proof.Machine
end

