-- ==== Sys2Proof/Machine/CopyEvents.lean ====
section
/-! DEFINITION. The copy unit at work (09_copy_unit.md R272, R277 to R289, R499): a command starts, delivers its units in order,
and ends with its completion word. -/
namespace Sys2Proof.Machine

/-- The head command of a channel. -/
def State.headCmd (s : State) (cl ch : Nat) : Option CopyCmd := (s.chan cl ch).queue.head?

def State.setWp (s : State) (cl ch n : Nat) : State :=
  s.setChan cl ch { s.chan cl ch with wp := BitVec.ofNat 40 n }

/-! ### Endpoints of a running command (R271) -/

/-- Where an endpoint starts. -/
inductive End where
  | mesh (p : Place)
  | desc (pages : List PageTr) (va : Nat)
deriving DecidableEq, Repr

/-- Key of byte `i` of an endpoint. -/
def End.key : End → Int → Option Nat
  | .mesh p, i => if 0 ≤ (p.off : Int) + i then some (p.key - p.off + ((p.off : Int) + i).toNat) else none
  | .desc pages va, i => if 0 ≤ (va : Int) + i then transIn pages ((va : Int) + i).toNat else none

/-- The address that unit boundaries count from. -/
def End.addr : End → Nat
  | .mesh p => p.off
  | .desc _ va => va

/-- An endpoint of a command: a descriptor with the offset of a register, or a mesh address. -/
def State.endOf (s : State) (c : CopyCmd) (d : Option TensorDesc) (v : Nat) : Option End :=
  match d with
  | some x => some (.desc x.pages (x.vbase + nf v 16 48))
  | none => (s.meshRange c.unit v 0).map .mesh

/-! ### Sources as streams of bytes in delivery order -/

/-- A byte of a source. -/
inductive Src where
  | at (key : Nat)
  | zero
  | nowhere
deriving DecidableEq, Repr

def Src.ofKey : Option Nat → Src
  | some k => .at k
  | none => .nowhere

/-- Element `e` of the box of CPY.TEN: its byte offset on the descriptor side (R278). -/
def tenOffset (c : CopyCmd) (d : TensorDesc) (e : Nat) : Nat :=
  let x := fun i => tenX (c.reg 2) i
  let j := [e % x 0, e / x 0 % x 1, e / (x 0 * x 1) % x 2, e / (x 0 * x 1 * x 2)]
  ((List.range 4).map (fun i => (tenO (c.reg 3) (c.reg 4) i + nth 0 j i) * nth 0 d.strs i)).sum

/-- The descriptor and the mesh endpoint of CPY.TEN. -/
def State.tenEnds (s : State) (c : CopyCmd) : Option (TensorDesc × End) :=
  let out := nb (c.reg 2) 63
  match (if out then c.dst else c.src), s.meshRange c.unit (if out then c.reg 0 else c.reg 1) 0 with
  | some d, some p => some (d, .mesh p)
  | _, _ => none

/-- Byte `j` of the element array of CPY.TEN on one of its two sides. -/
def tenKey (c : CopyCmd) (d : TensorDesc) (m : End) (onDesc : Bool) (j : Nat) : Option Nat :=
  if onDesc then transIn d.pages (d.vbase + tenOffset c d (j / d.esz) + j % d.esz) else m.key j

/-- Bytes of a row of a ring buffer (R283). -/
def CopyCmd.ringRow (c : CopyCmd) : Nat := 64 * (shapeOf (nf (c.reg 4) 0 32)).pitch
/-- Tokens of a gather, and its first one. -/
def CopyCmd.tokens (c : CopyCmd) : Nat := nf (c.reg 3) 24 25
def CopyCmd.token0 (c : CopyCmd) : Nat := nf (c.reg 3) 0 24
/-- Rows and bytes of CPY.TILE (R279). -/
def CopyCmd.tileRows (c : CopyCmd) : Nat := nf (c.reg 2) 16 7
def CopyCmd.tileBytes (c : CopyCmd) : Nat := nf (c.reg 2) 0 16
def CopyCmd.maskOnes (c : CopyCmd) : Nat := ones c.mask.toNat 32

/-- The page of a gather's token, with the token's place in it. -/
def CopyCmd.pageOfToken (c : CopyCmd) (g : SpliceCfg) (t : Nat) : Option PinnedPage := c.pins[t / g.p - c.token0 / g.p]?

/-- Length of the source stream: of the whole command, for CPY.RBLK of the current block. -/
def State.streamLen (s : State) (c : CopyCmd) : Nat :=
  match c.fn with
  | 0x12 => nf (c.reg 2) 0 32
  | 0x13 => match s.tenEnds c with
    | some (d, _) => d.esz * ((List.range 4).map (tenX (c.reg 2))).prod
    | none => 0
  | 0x14 => c.tileRows * c.tileBytes
  | 0x15 => 64 + c.maskOnes * c.place
  | 0x16 => c.maskOnes * c.ringRow
  | 0x17 => c.tokens * c.rb
  | _ => match s.splice.cfg with | some g => g.f | none => 0

/-- Place of the next byte to deliver in the stream. -/
def CopyCmd.pos (c : CopyCmd) : Nat :=
  match c.fn with
  | 0x16 => c.row * c.ringRow
  | 0x17 => c.gathered
  | _ => c.done

/-- Byte `j` of the stream. -/
def State.streamAt (s : State) (c : CopyCmd) (j : Nat) : Src :=
  match c.fn with
  | 0x12 => match s.endOf c c.src (c.reg 0) with
    | some e => .ofKey (e.key j)
    | none => .nowhere
  | 0x13 => match s.tenEnds c with
    | some (d, m) => .ofKey (tenKey c d m (!nb (c.reg 2) 63) j)
    | none => .nowhere
  | 0x14 => match s.endOf c c.src (c.reg 0) with
    | some e => .ofKey (e.key ((j / c.tileBytes : Nat) * sfield 64 (c.reg 3) + (j % c.tileBytes : Nat)))
    | none => .nowhere
  | 0x15 => match c.tile with
    | some (b, _) =>
      let k := j - 64
      .at (bufBase (clusterOf c.unit) b + nth 0 (onesAt c.mask.toNat 32) (k / c.place) * c.place + k % c.place)
    | none => .nowhere
  | 0x16 => match c.src with
    | some d => .ofKey (transIn d.pages (d.vbase + c.place + 64 + j))
    | none => .nowhere
  | 0x17 => match s.splice.cfg with
    | some g =>
      let t := c.token0 + j / c.rb
      match c.pageOfToken g t with
      | some q => if q.pool then .zero
        else .ofKey (transIn g.pages (g.frameAt false q.frame + t % g.p * g.rs + nf (c.reg 4) 0 16 + j % c.rb))
      | none => .nowhere
    | none => .nowhere
  | _ => match s.splice.cfg, c.frames with
    | some g, some (_, old) => .ofKey (transIn g.pages (g.frameAt (decide (c.fn = 0x18)) old + j))
    | _, _ => .nowhere

/-- Up to `n` bytes of the stream from byte `j` on; it stops before the first that cannot be read, and says why. -/
def State.streamRead (s : State) (c : CopyCmd) : Nat → Nat → List Byte × MemRes
  | 0, _ => ([], .ok [])
  | n + 1, j =>
    if s.streamLen c ≤ j then ([], .ok [])
    else match s.streamAt c j with
    | .nowhere => ([], .unmapped 0)
    | .zero => let r := s.streamRead c n (j + 1); (0 :: r.1, r.2)
    | .at k =>
      if decide (k < 2 ^ 56) && !s.mapped k then ([], .unmapped k)
      else if s.bad k 1 then ([], .error k)
      else let r := s.streamRead c n (j + 1); (mget 0 s.mem k :: r.1, r.2)

/-- Source bytes of CPY.LIN that lie at a key: their places in the stream. -/
def End.indicesOf (e : End) (k : Nat) : List Int :=
  match e with
  | .mesh p => [(k : Int) - p.key]
  | .desc pages va => (pages.filter (fun q => decide (q.pa ≤ k) && decide (k < q.pa + q.size))).map
      (fun q => (q.va : Int) + (k - q.pa : Nat) - va)

/-- How far CPY.LIN must have read before it writes the destination bytes `j` to `j + n`: past every source byte that they
overwrite (R277). -/
def State.linNeed (s : State) (c : CopyCmd) (dst : End) (j n : Nat) : Nat :=
  match s.endOf c c.src (c.reg 0) with
  | none => 0
  | some src =>
    let len := s.streamLen c
    let hits := (List.range n).flatMap (fun i => match dst.key ((j + i : Nat) : Int) with
      | some k => (src.indicesOf k).filterMap (fun (x : Int) => if 0 ≤ x ∧ x < (len : Int) then some (x.toNat + 1) else none)
      | none => [])
    hits.foldl max 0

/-! ### Writes -/

/-- A write of the bytes of an endpoint, one line at a time; into tile data only while the buffer is OPEN (R499). The answer says
whether every byte landed. -/
def State.endPieces (s : State) (e : End) : List (Nat × Nat) → List Byte → Except Nat (State × Bool)
  | [], _ => .ok (s, true)
  | x :: xs, bs =>
    let piece := bs.take x.2
    match e with
    | .mesh p =>
      let q := { p with off := x.1 }
      if p.tile && decide ((s.buf p.cl q.buf).state ≠ .open_) then .ok (s, false)
      else (s.put q.key piece).endPieces e xs (bs.drop x.2)
    | .desc pages _ => match transIn pages x.1 with
      | none => .error x.1
      | some pa => if !s.mapped pa then .error pa else (s.enginePut pa piece).endPieces e xs (bs.drop x.2)

def State.endWrite (s : State) (e : End) (i : Nat) (bs : List Byte) : Except Nat (State × Bool) :=
  s.endPieces e (linePieces (bs.length / 64 + 2) (e.addr + i) bs.length) bs

/-! ### Start (R72, R272) -/

/-- CPY.WBLK reads the control word and the metadata (R282). -/
def State.startWblk (s : State) (cl : Nat) (c : CopyCmd) : CopyCmd :=
  let r := tileRef (c.opnd.truncate 32)
  let x := s.buf cl r.b
  let rows := x.validRows
  let codes := rows.map (fun i => (mget 0 x.rmap i).toNat)
  if x.gen ≠ r.gen then c.ends 0x12 0
  else if x.state = .free ∨ x.state = .open_ then c.ends 0x11 0
  else if !x.haar || !(decide (codes.Pairwise (· < ·))) then c.ends 0x14 0
  else
    let mask := (codes.map (fun k => 2 ^ k)).sum
    let header := mask + (mget 0 x.pos 0).toNat * 2 ^ 32 + x.fmt.toNat * 2 ^ 56 + x.pitch * 2 ^ 64
    { c with phase := .running, ahead := leBytes 64 header, mask := x.vmask.truncate 32, place := 64 * x.pitch,
             tile := some (r.b, r.gen) }

/-- COPY_COMMAND_START: WP := 0 and the command starts. -/
def execCopyCommandStart (cl ch : Nat) (s : State) : Out :=
  match s.headCmd cl ch with
  | none => .next s
  | some c =>
    if c.phase ≠ .queued then .next s
    else
      let t := s.setWp cl ch 0
      .next (t.setHeadCmd cl ch (match c.fn with
        | 0x12 | 0x13 | 0x14 => { c with phase := .running }
        | 0x15 => s.startWblk cl c
        | 0x16 => { c with phase := .permit, place := (match c.src with | some _ => nf (c.reg 0) 16 48 | none => 0) }
        | _ => { c with phase := .request }))

/-! ### Delivery (R71, R272) -/

/-- Elements of CPY.TEN from element `e` on whose destination lies in the line of the first one: strides nest without overlap, so
they follow one another in delivery order, and every granule is written in one step (R48, R275). -/
def tenRun (c : CopyCmd) (d : TensorDesc) (e : Nat) : Nat :=
  let line (k : Nat) : Nat := (d.vbase + tenOffset c d k) / 64
  ((List.range 64).takeWhile (fun i => decide (line (e + i) = line e))).length

/-- The next unit of a command: how many bytes of the stream it takes. A gather whose rows follow one another without a gap lands line
by line, so that a granule which two rows share is written whole (R48); with gaps a line or what the row has of it. -/
def State.unitLen (s : State) (c : CopyCmd) : Nat :=
  let rest := s.streamLen c - c.pos
  let upTo (a : Nat) : Nat := min (64 - a % 64) rest
  match c.fn with
  | 0x12 => match s.endOf c c.dst (c.reg 1) with
    | some e => upTo (e.addr + c.done)
    | none => 0
  | 0x13 => match s.tenEnds c with
    | some (d, m) => if nb (c.reg 2) 63 then min (tenRun c d (c.done / d.esz) * d.esz) rest else upTo (m.addr + c.done)
    | none => 0
  | 0x14 => min c.tileBytes rest
  | 0x15 => match s.endOf c c.dst (c.reg 1) with
    | some e => upTo (e.addr + c.done)
    | none => 0
  | 0x16 => min c.ringRow rest
  | 0x17 => match s.endOf c none (c.reg 1) with
    | some e => if c.rp = c.rb then upTo (e.addr + c.done) else min (c.rb - c.done % c.rp) (upTo (e.addr + c.done))
    | none => 0
  | _ => min 64 (upTo ((match s.splice.cfg with
      | some g => g.frameAt (decide (c.fn = 0x19)) (match c.frames with | some (n, _) => n | none => 0)
      | none => 0) + c.done))

/-- What a delivered unit does: it lands, or stops the command with a status. -/
inductive Landed where
  | ok (s : State)
  | stop (s : State) (status : Nat)
  | unmapped (pa : Nat)

def landed : Except Nat (State × Bool) → Landed
  | .error pa => .unmapped pa
  | .ok (t, true) => .ok t
  | .ok (t, false) => .stop t 0x11

/-- A tile write of the copy unit meets GEN and STATE (R280). -/
def State.tileMeets (s : State) (cl b : Nat) (gen : BitVec 8) (k : Buffer → Landed) : Landed :=
  let x := s.buf cl b
  if x.gen ≠ gen then .stop s 0x12 else if x.state ≠ .open_ then .stop s 0x11 else k x

/-- A row of CPY.TILE lands (R280). -/
def State.landTileRow (s : State) (cl : Nat) (c : CopyCmd) (bs : List Byte) : Landed :=
  let r := tileRef (w32 (nf (c.reg 1) 0 32))
  let i := c.done / c.tileBytes
  let row := nf (c.reg 1) 48 6 + i
  let pos := nf (c.reg 4) 0 24 + i
  s.tileMeets cl r.b r.gen (fun x =>
    let t := s.tileWrite cl r.b row (nf (c.reg 1) 32 16) bs
    if !nb (c.reg 4) 24 then .ok t
    else if 2 ^ 24 ≤ pos then .stop s 0x13
    else if x.haar && decide (row ≠ 0) then .stop s 0x14
    else if x.haar && decide (pos % 32 ≠ 0) then .stop s 0x13
    else
      let y := t.buf cl r.b
      .ok (t.setBuf cl r.b { y with pos := mset 0 y.pos row (BitVec.ofNat 24 pos) }))

/-- A row of a block lands in its ring buffer (R283). -/
def State.landBlockRow (s : State) (cl : Nat) (c : CopyCmd) (bs : List Byte) : Landed :=
  match c.tile with
  | none => .stop s 0x11
  | some (b, gen) => s.tileMeets cl b gen (fun _ =>
      let t := s.tileWrite cl b c.row 0 bs
      let y := t.buf cl b
      .ok (t.setBuf cl b { y with rmap := mset 0 y.rmap c.row (BitVec.ofNat 5 (nth 0 (onesAt c.mask.toNat 32) c.row)) }))

/-- Elements of CPY.TEN land on the descriptor side. -/
def State.landTen (s : State) (c : CopyCmd) (d : TensorDesc) : Nat → List (List Byte) → Except Nat (State × Bool)
  | _, [] => .ok (s, true)
  | e, x :: xs => match s.endWrite (.desc d.pages (d.vbase + tenOffset c d e)) 0 x with
    | .ok (t, true) => t.landTen c d (e + 1) xs
    | r => r

/-- A unit lands. -/
def State.landUnit (s : State) (cl : Nat) (c : CopyCmd) (bs : List Byte) : Landed :=
  match c.fn with
  | 0x12 | 0x15 => match s.endOf c c.dst (c.reg 1) with
    | some e => landed (s.endWrite e c.done bs)
    | none => .stop s 0x11
  | 0x13 => match s.tenEnds c with
    | some (d, m) =>
      if nb (c.reg 2) 63 then landed (s.landTen c d (c.done / d.esz) (chunksN d.esz (bs.length / d.esz) bs))
      else landed (s.endWrite m c.done bs)
    | none => .stop s 0x11
  | 0x14 => s.landTileRow cl c bs
  | 0x16 => s.landBlockRow cl c bs
  | 0x17 => match s.endOf c none (c.reg 1) with
    | some e => landed (s.endWrite e c.done bs)
    | none => .stop s 0x11
  | _ => match s.splice.cfg, c.frames with
    | some g, some (n, _) => landed (s.endWrite (.desc g.pages (g.frameAt (decide (c.fn = 0x19)) n)) c.done bs)
    | _, _ => .ok s

/-- How far the destination advances by a unit of `n` bytes (R272); a gather passes the gap after a whole row (R284). -/
def State.advance (s : State) (c : CopyCmd) (n : Nat) : Nat :=
  match c.fn with
  | 0x17 => if c.rp ≠ c.rb ∧ c.done % c.rp + n = c.rb ∧ c.pos + n < s.streamLen c then c.rp - c.done % c.rp else n
  | _ => n

/-- The seal of a ring buffer at the end of its block (R280, R283); the command goes on with the next block, or ends. -/
def State.endBlock (s : State) (cl : Nat) (c : CopyCmd) (pos0 : Nat) : State × CopyCmd :=
  match c.tile with
  | none => (s, c.ends 0x11 c.count)
  | some (b, gen) =>
    let x := s.buf cl b
    if x.gen ≠ gen then (s, c.ends 0x12 c.count)
    else if x.state ≠ .open_ then (s, c.ends 3 c.count)
    else
      let t := s.setBuf cl b { x with pos := mset 0 x.pos 0 (BitVec.ofNat 24 pos0) }
      let c1 := { c with count := c.count + 1, place := c.place + 64 + c.maskOnes * c.ringRow, tile := none, row := 0 }
      let c2 := if c1.count = nf (c.reg 2) 0 16 then c1.ends 1 c1.count else { c1 with phase := .permit }
      match t.sealTile cl b with
      | .empty u => (u, c2)
      | .sealed u _ => (u, c2)
      | .domain => (t, c.ends 0x14 c.count)
      | .stale => (t, c.ends 0x12 c.count)
      | .already => (t, c.ends 3 c.count)

/-- POS0 in the header of the current block, which lies in front of its rows. -/
def State.blockHeader (s : State) (c : CopyCmd) : MemRes :=
  match c.src with
  | some d => s.pagesRead d.pages (d.vbase + c.place) 64
  | none => .unmapped 0

/-- After the last unit of a gather: the pins are released and the misses posted (R284). -/
def State.endGather (s : State) (cl ch : Nat) (c : CopyCmd) : Out :=
  match s.releasePins (c.place - 1) with
  | .next t =>
    let n := c.noted.length
    let st := if n = 0 then 1 else 2
    .next (t.setHeadCmd cl ch (if n = 0 ∨ c.reg 5 = 0 then { c with phase := .ended, status := st, count := n, place := 0 }
      else { c with phase := .posting, status := st, count := n, place := 0 }))
  | r => r

/-- The logical pages of the tokens in a gather's next `n` bytes, noted if they are pool pages (R284). -/
def State.noteMiss (s : State) (c : CopyCmd) (n : Nat) : List Nat :=
  match s.splice.cfg with
  | some g =>
    let first := c.pos / c.rb
    (List.range ((c.pos + n - 1) / c.rb + 1 - first)).foldl (fun noted i =>
      let t := c.token0 + first + i
      match c.pageOfToken g t with
      | some q => if q.pool && !noted.contains (t / g.p) then noted ++ [t / g.p] else noted
      | none => noted) c.noted
  | none => c.noted

/-- WP after `done` bytes: CPY.TEN counts whole elements, CPY.KVG whole rows (R272, R284). -/
def State.wpAt (s : State) (c : CopyCmd) (done : Nat) : Nat :=
  if c.fn = 0x13 then match s.tenEnds c with | some (d, _) => done / d.esz * d.esz | none => done
  else if c.fn = 0x17 ∧ ({ c with done := done } : CopyCmd).gathered < s.streamLen c then done / c.rp * c.rp
  else done

/-- The command after a unit of `n` bytes; one that CPY.ABORT stops ends at its first 64-byte boundary (R289). -/
def State.afterUnit (s : State) (cl ch : Nat) (c : CopyCmd) (n : Nat) : Out :=
  let done := c.done + s.advance c n
  let c1 := { c with done := done, ahead := c.ahead.drop n,
                     noted := if c.fn = 0x17 then s.noteMiss c n else c.noted,
                     row := if c.fn = 0x16 then c.row + 1 else c.row }
  let t := s.setWp cl ch (s.wpAt c done)
  if c.aborting && (s.atBoundary c1 || decide (s.streamLen c ≤ c1.pos)) then .next (t.setHeadCmd cl ch { c1.ends 5 (c1.stopCount (s.wpAt c done)) with ahead := [] })
  else if c.fn = 0x16 ∧ c1.row = c.maskOnes then
    match c.tile with
    | none => .next (t.setHeadCmd cl ch c1)
    | some _ =>
      let r := t.endBlock cl c1 c.pos0
      .next (r.1.setHeadCmd cl ch { r.2 with ahead := [] })
  else if c.fn = 0x17 ∧ s.streamLen c ≤ c.pos + n then t.endGather cl ch c1
  else .next (t.setHeadCmd cl ch c1)

/-- COPY_DELIVERY: the source is read `ahead` bytes further, or as far as the next unit needs, and that unit lands. A granule in
error ends the reading for good, whatever the copy writes over it afterwards (R277). -/
def execCopyDelivery (cl ch ahead : Nat) (s : State) : Out :=
  match s.headCmd cl ch with
  | none => .next s
  | some c =>
    let n := s.unitLen c
    if c.phase ≠ .running ∨ s.streamLen c ≤ c.pos ∨ n = 0 then .next s
    else
      let need := max (c.ahead.length + ahead) (max n (match c.fn, s.endOf c c.dst (c.reg 1) with
        | 0x12, some e => s.linNeed c e c.done n - c.pos
        | _, _ => 0))
      let r : List Byte × MemRes := match c.halt with
        | some key => ([], .error key)
        | none => s.streamRead c (need - c.ahead.length) (c.pos + c.ahead.length)
      let c1 := { c with ahead := c.ahead ++ r.1, halt := r.2.key }
      if c1.ahead.length < n then
        match r.2 with
        | .unmapped pa => .fault (.unmappedPhysical pa)
        | .error key => .next ((s.memError key).setHeadCmd cl ch ({ c1 with ahead := [] }.ends 0x10 (c1.stopCount (s.wpAt c c.done))))
        | .ok _ => .next s
      else match s.landUnit cl c1 (c1.ahead.take n) with
        | .ok t => t.afterUnit cl ch c1 n
        | .stop t st => .next (t.setHeadCmd cl ch ({ c1 with ahead := [] }.ends st (c1.stopCount (s.wpAt c c.done))))
        | .unmapped pa => .fault (.unmappedPhysical pa)

/-! ### Blocks (R283) -/

/-- The header of the block at `place`, for a ring buffer that has been opened. One that breaks FMT or PITCH and a bound too ends with
FORMAT (log entry 98). -/
def State.takeHeader (s : State) (cl ch : Nat) (c : CopyCmd) (d : TensorDesc) (sh : Shape) : Out :=
  if d.extent < c.place + 64 then .next (s.setHeadCmd cl ch (c.ends 0x15 c.count))
  else match s.blockHeader c with
  | .unmapped pa => .fault (.unmappedPhysical pa)
  | .error key => .next ((s.memError key).setHeadCmd cl ch (c.ends 0x10 c.count))
  | .ok bs =>
    let v := leNat bs
    let c1 := { c with mask := BitVec.ofNat 32 (nf v 0 32), row := 0, phase := .running, pos0 := nf v 32 24 }
    if nf v 56 4 ≠ sh.fmt ∨ nf v 64 9 ≠ sh.pitch then .next (s.setHeadCmd cl ch (c.ends 0x17 c.count))
    else if nf v 32 24 % 32 ≠ 0 ∨ d.extent < c.place + 64 + c1.maskOnes * c.ringRow then
      .next (s.setHeadCmd cl ch (c.ends 0x15 c.count))
    else if nf v 0 32 = 0 then
      let r := s.endBlock cl c1 (nf v 32 24)
      .next (r.1.setHeadCmd cl ch r.2)
    else .next (s.setHeadCmd cl ch c1)

/-- RBLK_BLOCK_START: a permit, the open, the header. -/
def execRblkBlockStart (cl ch : Nat) (s : State) : Out :=
  match s.headCmd cl ch with
  | none => .next s
  | some c =>
    let x := s.chan cl ch
    if c.phase ≠ .permit ∨ nf (c.reg 2) 16 8 ≤ x.permits.length then .next s
    else match s.freeBuf cl, c.src with
    | some b, some d =>
      let sh := shapeOf (nf (c.reg 4) 0 32)
      let t := s.openTile cl b sh (if nb (c.reg 4) 32 then 1 else 0) 0
      let gen := (t.buf cl b).gen
      let u := t.setChan cl ch { x with permits := x.permits ++ [(b, gen)] }
      u.takeHeader cl ch { c with tile := some (b, gen), ahead := [] } d sh
    | _, _ => .next s

/-! ### Tier misses (R285) -/

/-- TIER_MISS_EVENT_POST: the next noted page; the post waits while the queue is full. -/
def execTierMissEventPost (cl ch : Nat) (s : State) : Out :=
  match s.headCmd cl ch with
  | none => .next s
  | some c =>
    if c.phase ≠ .posting then .next s
    else match c.noted with
    | [] => .next (s.setHeadCmd cl ch { c with phase := .ended })
    | page :: rest =>
      match s.evtTarget c.unit (c.reg 5) with
      | none => .next s
      | some (u, q) =>
        match s.postEq u q (w64 (page % 2 ^ 32 + ch * 2 ^ 32 + c.seq % 2 ^ 16 * 2 ^ 48)) .device with
        | none => .next s
        | some t => .next (t.setHeadCmd cl ch { c with noted := rest, phase := if rest.isEmpty then .ended else .posting })

/-! ### Completion (R280, R282, R286, R287) -/

/-- The follow-on seal of CPY.TILE: the status (R280). -/
def State.followOn (s : State) (cl : Nat) (c : CopyCmd) : State × Nat :=
  let r := tileRef (w32 (nf (c.reg 1) 0 32))
  if !c.sealed then (s, 1)
  else if (s.buf cl r.b).gen ≠ r.gen then (s, 0x12)
  else match s.sealTile cl r.b with
  | .empty t => (t, 1)
  | .sealed t _ => (t, 1)
  | .already => (s, 3)
  | .domain => (s, 0x14)
  | .stale => (s, 0x12)

/-- A command whose last unit has landed: its last effect and its status. -/
def State.lastEffect (s : State) (cl ch : Nat) (c : CopyCmd) : Out × CopyCmd :=
  match c.fn with
  | 0x14 => let r := s.followOn cl c; (.next r.1, c.ends r.2 c.done)
  | 0x15 =>
    let r := tileRef (c.opnd.truncate 32)
    (.next (if c.drop && decide ((s.buf cl r.b).gen = r.gen) then s.dropTile cl r.b else s), c.ends 1 c.done)
  | 0x18 | 0x19 => (s.endMove cl ch true, c.ends 1 1)
  | _ => (.next s, c.ends 1 c.done)

/-- A command that has ended early leaves its pins, or its page as it was. -/
def State.earlyEnd (s : State) (cl ch : Nat) (c : CopyCmd) : Out :=
  match c.fn with
  | 0x17 => if c.place = 0 then .next s else s.releasePins (c.place - 1)
  | 0x18 | 0x19 => s.endMove cl ch false
  | _ => .next s

/-- The completion word is written, and the command leaves its queue (R287). -/
def State.completes (s : State) (cl ch : Nat) (c : CopyCmd) : State :=
  let t := s.putCw c.unit (c.reg 6) (cwWord c.status ch c.seq c.count)
  let x := t.chan cl ch
  (t.setChan cl ch { x with queue := x.queue.tail }).wakeQueues

/-- COPY_COMMAND_COMPLETE. -/
def execCopyCommandComplete (cl ch : Nat) (s : State) : Out :=
  match s.headCmd cl ch with
  | none => .next s
  | some c =>
    if c.phase = .ended then
      match s.earlyEnd cl ch c with
      | .next t => .next (t.completes cl ch c)
      | r => r
    else if c.phase = .running ∧ c.fn ≠ 0x16 ∧ c.fn ≠ 0x17 ∧ s.streamLen c ≤ c.done then
      match s.lastEffect cl ch c with
      | (.next t, c') => .next (t.completes cl ch c')
      | (r, _) => r
    else .next s

end Sys2Proof.Machine
end

