-- ==== Sys2Proof/Machine/Fabric.lean ====
section
/-! DEFINITION. The fabric engine's commands as strands issue them (14_fabric_engine.md R403 to R418, R423): contexts, windows,
groups, transfers, seals, all-reduces, remote atomics, link registers. -/
namespace Sys2Proof.Machine

/-! ### Contexts (R405, R409) -/

def State.ctx (s : State) (u c : Nat) : Ctx := mget {} (s.core u).fab c
def State.setCtx (s : State) (u c : Nat) (x : Ctx) : State := s.updCore u (fun k => { k with fab := mset {} k.fab c x })
def Ctx.reg (x : Ctx) (n : Nat) : Nat := (mget 0 x.regs n).toNat

/-- FAB.SETR (R405). -/
def execFabSetr (a : GReg) (c : BitVec 2) (n : BitVec 3) (s : State) : Out :=
  let x := s.ctx s.cur c.toNat
  onStrand s (.ok (s.setCtx s.cur c.toNat { x with regs := mset 0 x.regs n.toNat (s.readG a) }) 4)

/-- FAB.GETR: register 5 is SEQ (R405). -/
def execFabGetr (d : GReg) (c : BitVec 2) (n : BitVec 3) (s : State) : Out :=
  let x := s.ctx s.cur c.toNat
  onStrand s (s.gives d (if n = 5 then zx x.seq else mget 0 x.regs n.toNat) 4)

/-! ### Endpoints (R406, R410) -/

/-- Device, window and offset of a window address. -/
def winDev (v : Nat) : Nat := nf v 56 8
def winNo (v : Nat) : Nat := nf v 50 6
def winOff (v : Nat) : Nat := nf v 0 50

/-- The device that an endpoint lies on; none when it does not resolve. -/
def State.endDev (s : State) (u v : Nat) (win : Bool) : Option Nat :=
  if win then (if s.member (winDev v) then some (winDev v) else none) else (s.resolve u (w64 v) 1).map Place.dev

/-- Bytes of the memory that a mesh address lies in. -/
def Place.size (p : Place) : Nat := if p.tile then 0x600000 else 0x10000

/-- Rows of `b` bytes at the listed offsets from a mesh endpoint lie in its memory. -/
def State.rowsFit (s : State) (u v b : Nat) (offs : List Int) : Bool :=
  match s.resolve u (w64 v) 1 with
  | some p => offs.all (fun o => decide (0 ≤ (p.off : Int) + o) && decide ((p.off : Int) + o + b ≤ p.size))
  | none => false

/-- An endpoint passes what is known at issue (R410). -/
def State.endIssue (s : State) (v : Nat) (win : Bool) (b : Nat) (offs : List Int) : Bool :=
  if win then (s.endDev s.cur v true).isSome else s.rowsFit s.cur v b offs

/-- LOC lies on the issuing device (R406). -/
def State.locIssue (s : State) (x : Ctx) (b : Nat) (offs : List Int) : Bool :=
  let win := nb (x.reg 2) 62
  decide (s.endDev s.cur (x.reg 0) win = some s.devNum) && s.endIssue (x.reg 0) win b offs

/-- REM (R406). -/
def State.remIssue (s : State) (x : Ctx) (b : Nat) (offs : List Int) : Bool := s.endIssue (x.reg 1) (nb (x.reg 2) 63) b offs

/-- A window of this device, checked for a requester (R408). -/
def State.windowFor (s : State) (dev win : Nat) (w : Bool) (off : Nat) (b : Nat) (offs : List Int) : Option Window :=
  match s.fabric.windows.find? (fun e => e.1 == win) with
  | some (_, x) =>
    if x.valid && nb x.acc.toNat dev && (!w || x.w)
      && offs.all (fun o => decide (0 ≤ (off : Int) + o) && decide ((off : Int) + o + b ≤ x.limit)) then some x else none
  | none => none

/-- The latched form of a window of this device. -/
def State.latchWin (s : State) (v : Nat) (w : Bool) (b : Nat) (offs : List Int) : Option LatchedWin :=
  (s.windowFor s.devNum (winNo v) w (winOff v) b offs).map (fun x => ⟨winNo v, x.vbase, x.pages⟩)

/-! ### Transfers (R411 to R414) -/

/-- Rows of a transfer: how many, and of how many bytes. -/
def fabRows (fn g : Nat) : Nat × Nat :=
  if fn = 0x12 then (nf g 0 16, nf g 16 16) else if fn = 0x13 then (nf g 16 7, nf g 0 16) else (1, nf g 0 32)

/-- Offsets of `n` rows with a 32-bit signed stride (R412; for FAB.TPUT read alike, log entry 34). -/
def rowOffs (n stride : Nat) : List Int := (List.range n).map (fun (i : Nat) => (i : Int) * sfield 32 stride)

/-- Row offsets at LOC and at REM. -/
def locOffs (fn g aux : Nat) : List Int := if fn = 0x12 ∨ fn = 0x13 then rowOffs (fabRows fn g).1 (nf aux 0 32) else [0]
def remOffs (fn g aux : Nat) : List Int := if fn = 0x12 then rowOffs (fabRows fn g).1 (nf aux 32 32) else [0]

/-- The layout checks of FAB.PUT, FAB.GET and FAB.PUTS. -/
def State.moveIssue (s : State) (x : Ctx) (fn : Nat) : Bool :=
  let g := x.reg 2
  let n := fabRows fn g
  decide (n.1 ≠ 0) && decide (n.2 ≠ 0) && decide (nf g 32 30 = 0) && s.locIssue x n.2 (locOffs fn g (x.reg 3))
    && s.remIssue x n.2 (remOffs fn g (x.reg 3))

/-- A handle that names a buffer of a member device. -/
def State.fabHandle (s : State) (h : W32) : Bool := s.member (tileRef h).dev && (tileRef h).inRange

/-- The layout checks of FAB.TPUT. -/
def State.tputIssue (s : State) (x : Ctx) : Bool :=
  let g := x.reg 2
  let n := fabRows 0x13 g
  decide (1 ≤ n.1) && decide (n.1 ≤ 64) && decide (1 ≤ n.2) && decide (n.2 ≤ 16384) && decide (nf g 23 39 = 0) && !nb g 63
    && decide (nf (x.reg 3) 32 32 = 0) && s.locIssue x n.2 (locOffs 0x13 g (x.reg 3))
    && (match tileAddr (w64 (x.reg 1)) false with
        | some t => s.fabHandle t.handle
        | none => false)

/-- A context with the registers that the command at PC latches (R405). -/
def State.latchedCtx (s : State) (c : Nat) : Ctx := { s.ctx s.cur c with regs := s.latchedRegs (s.ctx s.cur c).regs }

/-- The command as it enters its queue. -/
def State.queueFab (s : State) (c fn : Nat) (opnd : W64) (sl : Bool) : State :=
  let y := s.ctx s.cur c
  let x := s.latchedCtx c
  let seq := x.seq + 1
  let g := x.reg 2
  let n := fabRows fn g
  let moves := decide (fn ≤ 0x12)
  let lw := (moves || decide (fn = 0x13)) && nb g 62
  let rw := moves && nb g 63 && decide (winDev (x.reg 1) = s.devNum)
  let locWin := if lw then s.latchWin (x.reg 0) (decide (fn = 0x11)) n.2 (locOffs fn g (x.reg 3)) else none
  let remWin := if rw then s.latchWin (x.reg 1) (decide (fn ≠ 0x11)) n.2 (remOffs fn g (x.reg 3)) else none
  let cmd : FabCmd :=
    { fn := fn, seq := seq.toNat, slot := s.slot, loc := mget 0 x.regs 0, rem := mget 0 x.regs 1, geom := mget 0 x.regs 2,
      aux := mget 0 x.regs 3, cw := mget 0 x.regs 4, opnd := opnd, sealed := sl, locWin := locWin, remWin := remWin,
      noWin := (lw && locWin.isNone) || (rw && remWin.isNone), data := [], order := s.fabric.order + 1 }
  { s.setCtx s.cur c { y with seq := seq, queue := x.queue ++ [cmd] } with
    fabric := { s.fabric with order := s.fabric.order + 1 } }

/-- A transfer, seal or collective: refusal, wait for a queue entry, release at DOMAIN scope, queueing; gd takes SEQ (R410). A command
that waits keeps the registers that it has latched (R405). -/
def State.issueFab (s : State) (d : GReg) (c : BitVec 2) (ok : Bool) (k : State → State) : Out :=
  let x := s.latchedCtx c.toNat
  onStrand s (if !s.resumed && (!ok || !s.cwOk (x.reg 4)) then .trap s.command
    else (if 8 ≤ x.queue.length then .stay (s.parkFor .queue .wait)
      else s.releasing .domain (fun t => (k t).gives d (zx (x.seq + 1)) 4)).holding (.command x.regs none none true))

/-- FAB.PUT (R411). -/
def execFabPut (d : GReg) (c : BitVec 2) (s : State) : Out :=
  s.issueFab d c (s.moveIssue (s.ctx s.cur c.toNat) 0x10) (fun t => t.queueFab c.toNat 0x10 0 false)
/-- FAB.GET (R411). -/
def execFabGet (d : GReg) (c : BitVec 2) (s : State) : Out :=
  s.issueFab d c (s.moveIssue (s.ctx s.cur c.toNat) 0x11) (fun t => t.queueFab c.toNat 0x11 0 false)
/-- FAB.PUTS (R412). -/
def execFabPuts (d : GReg) (c : BitVec 2) (s : State) : Out :=
  s.issueFab d c (s.moveIssue (s.ctx s.cur c.toNat) 0x12) (fun t => t.queueFab c.toNat 0x12 0 false)
/-- FAB.TPUT; `e` is seal (R413). -/
def execFabTput (d : GReg) (e : Bool) (c : BitVec 2) (s : State) : Out :=
  s.issueFab d c (s.tputIssue (s.ctx s.cur c.toNat)) (fun t => t.queueFab c.toNat 0x13 0 e)
/-- FAB.SEAL (R414). -/
def execFabSeal (d a : GReg) (c : BitVec 2) (s : State) : Out :=
  let v := s.readG a
  s.issueFab d c (match tileHandle v with | some h => s.fabHandle h | none => false) (fun t => t.queueFab c.toNat 0x14 v false)

/-! ### All-reduce (R417, R418) -/

def State.group (s : State) (g : Nat) : Group := mget {} s.fabric.groups g

/-- Fields of an op word. -/
def aredGroup (v : Nat) : Nat := nf v 0 4
def aredOp (v : Nat) : Nat := nf v 4 4
def aredCount (v : Nat) : Nat := nf v 8 7

/-- Bytes of an element. -/
def aredBytes (op : Nat) : Nat := if op ≤ 2 then 4 else 8

/-- The record of the core's task marks it preemptible (R457). -/
def State.taskPreemptible (s : State) (u : Nat) : Bool :=
  match s.taskOf u with
  | some t => decide (t.rec_.field 122 1 = 1)
  | none => false

/-- The checks of FAB.ARED at issue (R410, R418). -/
def State.aredIssue (s : State) (x : Ctx) (v : Nat) : Bool :=
  let op := aredOp v
  let n := aredCount v
  let g := s.group (aredGroup v)
  let b := n * aredBytes op
  let countOk := if op ≤ 2 then decide (1 ≤ n ∧ n ≤ 64) else if op ≤ 8 then decide (1 ≤ n ∧ n ≤ 32) else decide (n = 0)
  let loc := fun (a : Nat) => decide (a % 8 = 0) && decide (s.endDev s.cur a false = some s.devNum) && s.rowsFit s.cur a b [0]
  decide (nf v 15 49 = 0) && decide (op ≤ 9) && countOk && !nb (x.reg 2) 62 && !nb (x.reg 2) 63 && loc (x.reg 0) && loc (x.reg 1)
    && nb g.members.toNat s.devNum && !(decide (g.tmo = 0) && s.taskPreemptible s.cur)

/-- A fabric completion word (R420). -/
def fabWord (status ctx flags seq count : Nat) : Nat :=
  status + ctx % 4 * 2 ^ 8 + flags % 32 * 2 ^ 11 + seq % 2 ^ 16 * 2 ^ 16 + count % 2 ^ 32 * 2 ^ 32

/-- Elements as they lie in memory. -/
def elementsOf (b n : Nat) (bs : List Byte) : List W64 := (chunksN b n bs).map (fun e => w64 (leNat e))

/-- The contribution of FAB.ARED: the elements at LOC go out, and the instance waits for the other members. A source in error ends
the command at once with MEMERR (log entry 35). -/
def State.contribute (s : State) (c v : Nat) : State :=
  let x0 := s.ctx s.cur c
  let x := s.latchedCtx c
  let gno := aredGroup v
  let g := s.group gno
  let op := aredOp v
  let n := aredCount v
  let seq := x.seq + 1
  let s1 := { s with fabric := { s.fabric with groups := mset {} s.fabric.groups gno { g with inst := g.inst + 1 } } }
  let key := match s.resolve s.cur (w64 (x.reg 0)) 1 with | some p => p.key | none => 0
  let b := n * aredBytes op
  if s1.bad key b then
    ((s1.memError key).setCtx s.cur c { x0 with seq := seq }).putCw s.cur (x.reg 4)
      (fabWord 0x10 c 0 seq.toNat (ones g.members.toNat 256))
  else
    let data := elementsOf (aredBytes op) n (s1.bytesAt key b)
    let t := s1.queueFab c 0x15 (w64 v) false
    let y := t.ctx t.cur c
    let t1 := t.setCtx t.cur c { y with queue := y.queue.map (fun k => if k.seq = seq.toNat ∧ k.fn = 0x15 then { k with data := data } else k) }
    let part : Contribution := { dev := s.devNum, op := op, count := n, members := g.members, data := data }
    { t1 with
      outbox := t1.outbox ++ [OutMsg.contribute gno g.inst part]
      fabric := { t1.fabric with insts := t1.fabric.insts ++ [⟨gno, g.inst, t.cur, c, seq.toNat⟩] } }

/-- FAB.ARED (R418). -/
def execFabAred (d a : GReg) (c : BitVec 2) (s : State) : Out :=
  let v := (s.readG a).toNat
  s.issueFab d c (s.aredIssue (s.ctx s.cur c.toNat) v) (fun t => t.contribute c.toNat v)

/-- A record of 64 bytes in the issuing core's local memory. -/
def State.localRecord (s : State) (o : Nat) : Nat × State :=
  let t := s.landFor s.cur (.localMem s.cur)
  (t.numAt (localBase t.cur + o) 64, t)

/-- FAB.GRP (R417). -/
def execFabGrp (d a b : GReg) (s : State) : Out :=
  let o := (s.readG a).toNat
  let n := (s.readG b).toNat
  onStrand s (s.needSuper (if o % 64 ≠ 0 ∨ 0x10000 ≤ o ∨ 15 < n then .trap s.command
    else
      let r := s.localRecord o
      let t := r.2
      let members : BitVec 256 := BitVec.ofNat 256 r.1
      if t.bad (localBase t.cur + o) 64 then t.errorTrap (localBase t.cur + o) (meshError (w64 o))
      else if !nb members.toNat t.devNum ∨ nf r.1 272 240 ≠ 0 then t.gives d 6 16
      else if t.fabric.insts.any (fun i => i.group == n) then t.gives d 5 16
      else { t with fabric := { t.fabric with
        groups := mset {} t.fabric.groups n { members := members, tmo := nf r.1 256 16, inst := 0 } } }.gives d 0 16))

/-! ### Windows (R407, R408) -/

/-- The window that a record describes, its translations still to come. -/
def windowOf (v : Nat) : Window :=
  { valid := true, vbase := nf v 0 57, limit := 4096 * nf v 64 32, w := nb v 96, acc := BitVec.ofNat 256 (nf v 128 256), pages := [] }

/-- FAB.WIN: status, or the window (R275, R407; what RANGE and FORMAT cover: log entry 36). -/
def State.makeWindow (s : State) (v n : Nat) : Except Nat Window :=
  let x := windowOf v
  if (match s.fabric.windows.find? (fun e => e.1 == n) with | some e => e.2.valid | none => false) then .error 5
  else if nf v 97 31 ≠ 0 ∨ nf v 384 128 ≠ 0 ∨ nf v 64 32 = 0 ∨ nf v 0 64 % 4096 ≠ 0 ∨ !canonical (w64 v) then .error 6
  else if 2 ^ 57 < x.vbase + x.limit then .error 3
  else match s.translateRange x.vbase x.limit x.w s.super with
    | .error e => .error e
    | .ok ps =>
      if 16384 < (s.fabric.windows.map (fun e => e.2.pages.length)).sum + ps.length then .error 4 else .ok { x with pages := ps }

/-- FAB.WIN (R407). -/
def execFabWin (d a b : GReg) (s : State) : Out :=
  let o := (s.readG a).toNat
  let n := (s.readG b).toNat
  onStrand s (s.needSuper (if o % 64 ≠ 0 ∨ 0x10000 ≤ o ∨ 63 < n then .trap s.command
    else
      let r := s.localRecord o
      let w := r.2.makeWindow r.1 n
      let t := r.2.afterWalks w [(nf r.1 0 57, 4096 * nf r.1 64 32)]
      if r.2.bad (localBase s.cur + o) 64 then r.2.errorTrap (localBase s.cur + o) (meshError (w64 o))
      else match w with
      | .error e => .okWait (t.writeG d (w64 e)) 16
      | .ok x => .okWait ({ t with fabric := { t.fabric with windows := mins (merase t.fabric.windows n) n x } }.writeG d 0)
          (16 + 48 * x.pages.length)))

/-- An accepted command uses window `n` of this device (R408). -/
def State.windowUsed (s : State) (n : Nat) : Bool :=
  s.cores.any (fun e => e.2.fab.any (fun x => x.2.queue.any (fun k =>
    [k.locWin, k.remWin].any (fun w => match w with | some y => y.win == n | none => false))))

/-- FAB.WFREE (R408). -/
def execFabWfree (d a : GReg) (s : State) : Out :=
  let n := (s.readG a).toNat
  onStrand s (s.needSuper (if 63 < n then .trap s.command
    else if s.windowUsed n then s.gives d 5 4
    else { s with fabric := { s.fabric with windows := merase s.fabric.windows n } }.gives d 0 4))

/-! ### Link registers (R423) -/

/-- The register of a link. -/
def Link.word (l : Link) : Nat := l.state % 4 + l.lanes % 16 * 4 + l.retry % 2 ^ 16 * 2 ^ 8 + l.fecc % 2 ^ 16 * 2 ^ 24 + l.ldown % 256 * 2 ^ 40

/-- FAB.LSTAT (R423). -/
def execFabLstat (d a : GReg) (s : State) : Out :=
  let n := (s.readG a).toNat
  let v := if n = 16 then s.fabric.portB % 4 + s.pool.length % 2 ^ 23 * 2 ^ 32 else (mget {} s.fabric.links n).word
  onStrand s (if 16 < n then .trap s.command else (s.acquire s.cur s.slot .device).gives d (w64 v) (16 + acqCost s.cur .device))

/-! ### Remote atomics (R416) -/

/-- What an atomic finds at its place on this device. -/
structure AtomRes where
  status : RemoteStatus
  /-- the old value, or the current handle of a buffer that is not OPEN -/
  value  : Nat
  state  : State
  /-- the clock of the home slice that performed it, for a window (R58) -/
  clock  : W64 := 0

/-- An atomic at a mesh place of this device (R235, R240). -/
def State.atomPlace (s : State) (p : Place) (code : BitVec 4) (z : AtSize) (n m : Nat) : AtomRes :=
  let k := z.bytes
  if p.tile && decide (code ≠ 0) && decide ((s.buf p.cl p.buf).state ≠ .open_) then ⟨.closed, (s.handleOf p.cl p.buf).toNat, s, 0⟩
  else if decide (code ≠ 1) && s.bad p.key k then ⟨.memerr, 0, s.memError p.key, 0⟩
  else
    let old := s.numAt p.key k
    match aopValue code z old n m with
    | some v => ⟨.done, old, s.put p.key (leBytes k v), 0⟩
    | none => ⟨.done, old, s, 0⟩

/-- An atomic at a physical address that a window gives: at its home, replicas withdrawn before a write (R77, R240). `clock` is the
clock of the requesting core, which the home takes in (R58). -/
def State.atomPhys (s : State) (pa : Nat) (code : BitVec 4) (z : AtSize) (n m : Nat) (clock : W64) : AtomRes :=
  let k := z.bytes
  let home := sliceKey pa
  let t := s.setClock home (maxW (s.clockOf home) clock)
  if decide (code ≠ 1) && t.bad pa k then ⟨.memerr, 0, t.memError pa, t.clockOf home⟩
  else
    let old := t.numAt pa k
    match aopValue code z old n m with
    | some v => let t2 := t.enginePut pa (leBytes k v); ⟨.done, old, t2, t2.clockOf home⟩
    | none => ⟨.done, old, t.touchPool pa false, t.clockOf home⟩

/-- An atomic on a window of this device for a requester (R408), `prep` being what the requester's core does first (R65); an error
for a physical address that is not mapped. -/
def State.atomWindow (s : State) (prep : State → Nat → State) (dev v : Nat) (code : BitVec 4) (z : AtSize) (n m : Nat) (clock : W64) :
    Except Nat AtomRes :=
  match s.windowFor dev (winNo v) true (winOff v) z.bytes [0] with
  | none => .ok ⟨.window, 0, s, 0⟩
  | some x => match transIn x.pages (x.vbase + winOff v) with
    | none => .error (x.vbase + winOff v)
    | some pa => if s.mapped pa then .ok ((prep s pa).atomPhys pa code z n m clock) else .error pa

/-- The device that a command goes to; none for an all-reduce. -/
def State.cmdDev (s : State) (u : Nat) (k : FabCmd) : Option Nat :=
  if k.fn = 0x15 then none
  else if k.fn = 0x14 then some (tileRef (k.opnd.truncate 32)).dev
  else if k.fn = 0x13 then some (tileRef (k.rem.truncate 32)).dev
  else s.endDev u k.rem.toNat (nb k.geom.toNat 63)

/-- The device on which a command's writes land: the issuing device for FAB.GET, whose destination is LOC, and for FAB.ARED, whose
result goes to REM there; the device that it goes to for the others (R411, R418). -/
def State.landDev (s : State) (u : Nat) (k : FabCmd) : Option Nat :=
  if k.fn = 0x11 ∨ k.fn = 0x15 then some s.devNum else s.cmdDev u k

/-- A command goes to a device, or its writes land there (R414, R415; log entry 57). -/
def State.fabAt (s : State) (u : Nat) (k : FabCmd) (dev : Nat) : Bool :=
  decide (s.cmdDev u k = some dev) || decide (s.landDev u k = some dev)

/-- Commands of a strand at a device that were issued before `order` and have not completed (R415). -/
def State.fabPending (s : State) (u slot dev order : Nat) : Bool :=
  (s.core u).fab.any (fun e => e.2.queue.any (fun k => k.slot == slot && decide (k.order < order) && s.fabAt u k dev))

/-- A command of context `c` that was issued before `k` and writes to the device on which `k` writes has not completed (R415). -/
def State.fabBehind (s : State) (u c : Nat) (k : FabCmd) : Bool :=
  (s.ctx u c).queue.any (fun e => decide (e.order < k.order) && decide (s.landDev u e = s.landDev u k))

/-- How a remote atomic ends: gd, the acquire, or a trap with EVAL = REM (R416). `clock` is that of the home slice that performed it
(R58). -/
def State.fabAtomEnd (s : State) (d : GReg) (code : BitVec 4) (rem : W64) (st : RemoteStatus) (v : Nat) (clock : W64) (lat : Nat) :
    Done :=
  match st with
  | .done =>
    let s1 := if clock = 0 then s else s.setClock s.cur (maxW (s.clockOf s.cur) clock)
    let t := if code = 1 then s1 else s1.acquire s.cur s.slot .domain
    .ok (if code = 1 then t else t.writeG d (w64 v)) (lat + if code = 1 then 0 else acqCost s.cur .domain)
  | .window => .trap { code := 0x08, eval := rem, wr := decide (code ≠ 0) }
  | .closed => .trap (closedAt (w64 v) d)
  | _ => .trapIn s { code := 0x14, eval := rem, wr := decide (code ≠ 0) }

/-- FAB.AMO. -/
def State.fabAmo (s : State) (d a : GReg) (m : Nat) (z : AtSize) (c : BitVec 2) (code : BitVec 4) : Out :=
  let x := s.latchedCtx c.toNat
  let rem := mget 0 x.regs 1
  let win := nb (x.reg 2) 63
  let n := (s.readG a).toNat % 2 ^ (8 * z.bytes)
  let place := s.resolve s.cur rem z.bytes
  let dev := if win then (if winOff rem.toNat % z.bytes = 0 then s.endDev s.cur rem.toNat true else none) else place.map Place.dev
  onStrand s (match dev with
    | none => .trap s.command
    | some dev =>
      let go (t : State) : Done :=
        if code ≠ 0 ∧ t.fabPending t.cur t.slot dev (t.fabric.order + 1) then .stay (t.parkFor .queue .run)
        else if dev ≠ t.devNum then
          if t.routeless dev then .trap { code := 0x14, eval := rem, wr := decide (code ≠ 0) }
          else
            let ep := match win, place with | false, some p => p.mesh | _, _ => rem
            .stay ({ t with outbox := t.outbox ++ [OutMsg.request dev
              (.atomic t.devNum ep win code z (w64 n) (w64 m) (t.clockOf t.cur))] }.awaits (.remote (.fab d code rem)))
        else if win then
          match t.atomWindow State.ownLineFirst dev rem.toNat code z n m (t.clockOf t.cur) with
          | .error pa => .fault (.unmappedPhysical pa)
          | .ok r => r.state.fabAtomEnd d code rem r.status r.value r.clock 16
        else match place with
          | none => .trap t.command
          | some p =>
            let t1 := if p.tile then t else t.landFor t.cur (.localMem p.unit)
            let r := t1.atomPlace p code z n m
            r.state.fabAtomEnd d code rem r.status r.value r.clock 16
      (if code = 0 then go s else s.releasing .domain go).holding (.command x.regs none none true))

/-- FAB.LDA (R416). -/
def execFabLda (d a : GReg) (z : AtSize) (c : BitVec 2) (s : State) : Out := s.fabAmo d a 0 z c 0
/-- FAB.STA (R416). -/
def execFabSta (d a : GReg) (z : AtSize) (c : BitVec 2) (s : State) : Out := s.fabAmo d a 0 z c 1
/-- FAB.AMOSWAP (R416). -/
def execFabAmoswap (d a : GReg) (z : AtSize) (c : BitVec 2) (s : State) : Out := s.fabAmo d a 0 z c 2
/-- FAB.AMOCAS: gb is the new value (R416). -/
def execFabAmocas (d a b : GReg) (z : AtSize) (c : BitVec 2) (s : State) : Out :=
  s.fabAmo d a ((s.readG b).toNat % 2 ^ (8 * z.bytes)) z c 3
/-- FAB.AMOADD (R416). -/
def execFabAmoadd (d a : GReg) (z : AtSize) (c : BitVec 2) (s : State) : Out := s.fabAmo d a 0 z c 4
/-- FAB.AMOAND (R416). -/
def execFabAmoand (d a : GReg) (z : AtSize) (c : BitVec 2) (s : State) : Out := s.fabAmo d a 0 z c 5
/-- FAB.AMOOR (R416). -/
def execFabAmoor (d a : GReg) (z : AtSize) (c : BitVec 2) (s : State) : Out := s.fabAmo d a 0 z c 6
/-- FAB.AMOXOR (R416). -/
def execFabAmoxor (d a : GReg) (z : AtSize) (c : BitVec 2) (s : State) : Out := s.fabAmo d a 0 z c 7
/-- FAB.AMOMIN (R416). -/
def execFabAmomin (d a : GReg) (z : AtSize) (c : BitVec 2) (s : State) : Out := s.fabAmo d a 0 z c 8
/-- FAB.AMOMAX (R416). -/
def execFabAmomax (d a : GReg) (z : AtSize) (c : BitVec 2) (s : State) : Out := s.fabAmo d a 0 z c 9
/-- FAB.AMOMINU (R416). -/
def execFabAmominu (d a : GReg) (z : AtSize) (c : BitVec 2) (s : State) : Out := s.fabAmo d a 0 z c 10
/-- FAB.AMOMAXU (R416). -/
def execFabAmomaxu (d a : GReg) (z : AtSize) (c : BitVec 2) (s : State) : Out := s.fabAmo d a 0 z c 11
/-- FAB.AMOFADD (R239, R416). -/
def execFabAmofadd (d a : GReg) (c : BitVec 2) (s : State) : Out := s.fabAmo d a 0 .w c 12

end Sys2Proof.Machine
end

