-- ==== Sys2Proof/Machine/Float.lean ====
section
/-! DEFINITION. Scalar floating point of the strands (06_strand_engine_compute.md R202 to R213). -/
namespace Sys2Proof.Machine

/-- Fraction bits of a format (R88). -/
def fracBits : FpFmt → Nat
  | .s => 23 | .b => 7

/-- An operand in the layout of FP32 (R88, R189). -/
def fpWord (f : FpFmt) (v : W64) : Nat :=
  match f with
  | .s => v.toNat % 2 ^ 32
  | .b => v.toNat % 2 ^ 16 * 2 ^ 16

/-- A result as the register takes it (R189). -/
def fpReg (f : FpFmt) (v : Nat) : W64 :=
  match f with
  | .s => w64 v
  | .b => w64 (v / 2 ^ 16)

def State.fpArg (s : State) (f : FpFmt) (r : GReg) : Fp := fpOf (fpWord f (s.readG r))

/-- gd takes the word and FPS the flags (R102, R189). -/
def State.fpGives (s : State) (d : GReg) (f : FpFmt) (r : FRes) (lat : Nat) : Out :=
  onBoth s (.ok ((s.writeG d (fpReg f r.1)).orFlags r.2) lat)

/-- kd takes the outcome of a compare and FPS the flags (R209). -/
def State.fpCond (s : State) (k : KReg) (v : Bool) (fl : W32) : Out := onBoth s (.ok ((s.writeK k v).orFlags fl) 8)

/-- FADD (R204). -/
def execFadd (d a b : GReg) (f : FpFmt) (s : State) : Out :=
  s.fpGives d f (fpAdd (fracBits f) s.bk.rm (s.fpArg f a) (s.fpArg f b)) 8

/-- FSUB (R204). -/
def execFsub (d a b : GReg) (f : FpFmt) (s : State) : Out :=
  s.fpGives d f (fpSub (fracBits f) s.bk.rm (s.fpArg f a) (s.fpArg f b)) 8

/-- FMUL (R204). -/
def execFmul (d a b : GReg) (f : FpFmt) (s : State) : Out :=
  s.fpGives d f (fpMul (fracBits f) s.bk.rm (s.fpArg f a) (s.fpArg f b)) 8

/-- FMA: ga × gb + gd, rounded once (R204). -/
def execFma (d a b : GReg) (f : FpFmt) (s : State) : Out :=
  s.fpGives d f (fpFma (fracBits f) s.bk.rm (s.fpArg f a) (s.fpArg f b) (s.fpArg f d)) 8

/-- FMIN (R205). -/
def execFmin (d a b : GReg) (f : FpFmt) (s : State) : Out :=
  s.fpGives d f (fpMin (fpWord f (s.readG a)) (fpWord f (s.readG b)) false) 8

/-- FMAX (R205). -/
def execFmax (d a b : GReg) (f : FpFmt) (s : State) : Out :=
  s.fpGives d f (fpMin (fpWord f (s.readG a)) (fpWord f (s.readG b)) true) 8

/-- A magnitude with a sign; a NaN becomes canonical (R206). -/
def withSign (v : Nat) (neg : Bool) : FRes := (if (fpOf v).isNaN then cNaN else signBit neg + magnitude v, 0)

/-- FABS (R206). -/
def execFabs (d a : GReg) (f : FpFmt) (s : State) : Out := s.fpGives d f (withSign (fpWord f (s.readG a)) false) 8

/-- FNEG (R206). -/
def execFneg (d a : GReg) (f : FpFmt) (s : State) : Out :=
  s.fpGives d f (withSign (fpWord f (s.readG a)) (!nb (fpWord f (s.readG a)) 31)) 8

/-- FCPYS: the sign bit of gb (R206). -/
def execFcpys (d a b : GReg) (f : FpFmt) (s : State) : Out :=
  s.fpGives d f (withSign (fpWord f (s.readG a)) (nb (fpWord f (s.readG b)) 31)) 8

/-- FRCP (R207). -/
def execFrcp (d a : GReg) (f : FpFmt) (s : State) : Out := s.fpGives d f (fpRcp (fracBits f) (s.fpArg f a)) 12

/-- FRSQ (R207). -/
def execFrsq (d a : GReg) (f : FpFmt) (s : State) : Out := s.fpGives d f (fpRsq (fracBits f) (s.fpArg f a)) 12

/-- The class bit of a word (R208). -/
def fpClass (v : Nat) : Nat :=
  let subnormal := decide (nf v 23 8 = 0)
  match fpOf v with
  | .nan q => if q then 1 else 0
  | .inf n => if n then 9 else 2
  | .fin n m _ => if m = 0 then (if n then 6 else 5)
    else if n then (if subnormal then 7 else 8) else (if subnormal then 4 else 3)

/-- FCLASS (R208). -/
def execFclass (d a : GReg) (f : FpFmt) (s : State) : Out :=
  onBoth s (s.gives d (w64 (2 ^ fpClass (fpWord f (s.readG a)))) 8)

/-- NV of a compare: a signalling operand, or any NaN where the compare says so (R209). -/
def cmpFlags (a b : Fp) (any : Bool) : W32 := nvIf (a.isSNaN || b.isSNaN || (any && (a.isNaN || b.isNaN)))

/-- FCEQ (R209). -/
def execFceq (k : KReg) (a b : GReg) (f : FpFmt) (s : State) : Out :=
  s.fpCond k (fpEq (s.fpArg f a) (s.fpArg f b)) (cmpFlags (s.fpArg f a) (s.fpArg f b) false)

/-- FCLT (R209). -/
def execFclt (k : KReg) (a b : GReg) (f : FpFmt) (s : State) : Out :=
  let x := s.fpArg f a
  let y := s.fpArg f b
  s.fpCond k (!x.isNaN && !y.isNaN && fpLt x y) (cmpFlags x y true)

/-- FCLE (R209). -/
def execFcle (k : KReg) (a b : GReg) (f : FpFmt) (s : State) : Out :=
  let x := s.fpArg f a
  let y := s.fpArg f b
  s.fpCond k (!x.isNaN && !y.isNaN && !fpLt y x) (cmpFlags x y true)

/-- FCUN (R209). -/
def execFcun (k : KReg) (a b : GReg) (f : FpFmt) (s : State) : Out :=
  let x := s.fpArg f a
  let y := s.fpArg f b
  s.fpCond k (x.isNaN || y.isNaN) (cmpFlags x y false)

/-- FCVT.S.B: exact widening (R210). -/
def execFcvtSB (d a : GReg) (s : State) : Out := s.fpGives d .s (fpNarrow 23 s.bk.rm (s.fpArg .b a)) 8

/-- FCVT.B.S (R210). -/
def execFcvtBS (d a : GReg) (s : State) : Out := s.fpGives d .b (fpNarrow 7 s.bk.rm (s.fpArg .s a)) 8

/-- Rounding of a conversion to integer: toward zero if T is set (R211). -/
def State.intRm (s : State) (t : Bool) : Nat := if t then 1 else s.bk.rm

def State.fpToReg (s : State) (d a : GReg) (t : Bool) (f : FpFmt) (lo hi : Int) : Out :=
  let r := fpToInt (s.intRm t) lo hi (s.fpArg f a)
  onBoth s (.ok ((s.writeG d (BitVec.ofInt 64 r.1)).orFlags r.2) 8)

/-- FTOW: the result is sign-extended (R211). -/
def execFtow (d a : GReg) (t : Bool) (f : FpFmt) (s : State) : Out := s.fpToReg d a t f (-2 ^ 31) (2 ^ 31 - 1)
/-- FTOWU (R211). -/
def execFtowu (d a : GReg) (t : Bool) (f : FpFmt) (s : State) : Out := s.fpToReg d a t f 0 (2 ^ 32 - 1)
/-- FTOL (R211). -/
def execFtol (d a : GReg) (t : Bool) (f : FpFmt) (s : State) : Out := s.fpToReg d a t f (-2 ^ 63) (2 ^ 63 - 1)
/-- FTOLU (R211). -/
def execFtolu (d a : GReg) (t : Bool) (f : FpFmt) (s : State) : Out := s.fpToReg d a t f 0 (2 ^ 64 - 1)

/-- WTOF (R212). -/
def execWtof (d a : GReg) (f : FpFmt) (s : State) : Out :=
  s.fpGives d f (fpOfInt (fracBits f) s.bk.rm (sfield 32 (s.readG a).toNat)) 8
/-- WUTOF (R212). -/
def execWutof (d a : GReg) (f : FpFmt) (s : State) : Out :=
  s.fpGives d f (fpOfInt (fracBits f) s.bk.rm (nf (s.readG a).toNat 0 32)) 8
/-- LTOF (R212). -/
def execLtof (d a : GReg) (f : FpFmt) (s : State) : Out := s.fpGives d f (fpOfInt (fracBits f) s.bk.rm (s.readG a).toInt) 8
/-- LUTOF (R212). -/
def execLutof (d a : GReg) (f : FpFmt) (s : State) : Out := s.fpGives d f (fpOfInt (fracBits f) s.bk.rm (s.readG a).toNat) 8

/-! ### PMERGE (R261) -/

/-- A value moved down by `k` powers of two. Beyond 400 the distance is taken as 400: every word is a multiple of 2^−149 below
2^128, so the part that is moved lies below a quarter of the last place of the other one either way and rounds alike. -/
def lowered (x : Fp) (k : Nat) : Fp :=
  match x with
  | .fin n m e => .fin n m (e - (min k 400 : Nat))
  | y => y

/-- The merge of two scaled sums: word, exponent, flags (R261). -/
def mergeSums (rm : Nat) (sa sb : Nat) (ea eb : Int) : FRes × Int :=
  let a := fpOf sa
  let b := fpOf sb
  let e := max ea eb
  if a.isNaN || b.isNaN then ((cNaN, nvIf (a.isSNaN || b.isSNaN)), e)
  else if a.isZero && b.isZero then ((signBit (a.neg && b.neg), 0), e)
  else if a.isZero then ((sb, 0), eb)
  else if b.isZero then ((sa, 0), ea)
  else (fpAdd 23 rm (lowered a (e - ea).toNat) (lowered b (e - eb).toNat), e)

/-- PMERGE (R261). -/
def execPmerge (d a b : GReg) (s : State) : Out :=
  let x := (s.readG a).toNat
  let y := (s.readG b).toNat
  let r := mergeSums s.bk.rm (nf x 0 32) (nf y 0 32) (sfield 32 (nf x 32 32)) (sfield 32 (nf y 32 32))
  onBoth s (.ok ((s.writeG d (w64 (wrapN 32 r.2 * 2 ^ 32 + r.1.1))).orFlags r.1.2) 8)

end Sys2Proof.Machine
end

