-- ==== Sys2Proof/Machine/FabricEvents.lean ====
section
/-! DEFINITION. The fabric engine at work (14_fabric_engine.md R404, R408, R411 to R424, R499): commands performed and completed,
requests of other devices, replies, all-reduce instances, links, Port B. -/
namespace Sys2Proof.Machine

/-- Status codes of fabric completion words (R421). -/
def fabCode : RemoteStatus → Nat
  | .done => 1 | .already => 3 | .empty => 6 | .memerr => 0x10 | .closed => 0x11 | .stale => 0x12 | .domain => 0x14
  | .window => 0x19 | .linkdown => 0x1A | .bounds => 0x1C

/-! ### Reads and writes of endpoints -/

/-- Up to `n` bytes of an endpoint from byte `i`; it stops before the first that cannot be read, and says why. -/
def State.endBytes (s : State) (e : End) : Nat → Int → List Byte × MemRes
  | 0, _ => ([], .ok [])
  | n + 1, i =>
    match e.key i with
    | none => ([], .unmapped 0)
    | some k =>
      if decide (k < 2 ^ 56) && !s.mapped k then ([], .unmapped k)
      else if s.bad k 1 then ([], .error k)
      else let r := s.endBytes e n (i + 1); (mget 0 s.mem k :: r.1, r.2)

/-- Pieces of an endpoint written in ascending order: the state, the bytes that landed, and whether all did (R499). -/
def State.fabPieces (s : State) (e : End) : List (Nat × Nat) → List Byte → Except Nat (State × Nat × Bool)
  | [], _ => .ok (s, 0, true)
  | x :: xs, bs =>
    match s.endPieces e [x] (bs.take x.2) with
    | .error a => .error a
    | .ok (_, false) => .ok (s, 0, false)
    | .ok (t, true) => match t.fabPieces e xs (bs.drop x.2) with
      | .error a => .error a
      | .ok (t', n, full) => .ok (t', x.2 + n, full)

def State.fabWrite (s : State) (e : End) (j : Int) (bs : List Byte) : Except Nat (State × Nat × Bool) :=
  s.fabPieces e (linePieces (bs.length / 64 + 2) ((e.addr : Int) + j).toNat bs.length) bs

/-- How a command stands: status, bytes delivered. -/
structure FabRun where
  s      : State
  status : Nat
  count  : Nat

/-- Of `n` bytes of a range of `b` that could be read, those that are delivered from destination address `a` on: inside its range a
destination is written in whole granules (R48, R411). -/
def wholeGrains (a : Int) (n b : Nat) : Nat := if b ≤ n then n else ((a + n) / 8 * 8 - a).toNat

/-- Rows moved on this device, in order, up to the first fault (R411, R412, R421). -/
def State.fabMove (s : State) (src dst : End) (b : Nat) : List (Int × Int) → Nat → Except Nat FabRun
  | [], n => .ok ⟨s, 1, n⟩
  | e :: es, n =>
    let r := s.endBytes src b e.1
    match s.fabWrite dst e.2 (r.1.take (wholeGrains (dst.addr + e.2) r.1.length b)) with
    | .error a => .error a
    | .ok (t, k, false) => .ok ⟨t, 0x11, n + k⟩
    | .ok (t, k, true) => match r.2 with
      | .unmapped a => .error a
      | .error key => .ok ⟨t.memError key, 0x10, n + k⟩
      | .ok _ => t.fabMove src dst b es (n + k)

/-- The rows of a source, each with the address of its destination, up to the first granule in error: the bytes that can be
delivered. -/
def State.fabRead (s : State) (src : End) (b : Nat) : List (Int × Int) → List Byte × MemRes
  | [] => ([], .ok [])
  | e :: es =>
    let r := s.endBytes src b e.1
    match r.2 with
    | .ok _ => let q := s.fabRead src b es; (r.1 ++ q.1, q.2)
    | x => (r.1.take (wholeGrains e.2 r.1.length b), x)

/-- Rows that another device sends, written in order up to the first that is refused: status and bytes delivered (R412, R421). -/
def State.fabRowsIn (s : State) (dst : End) (b : Nat) : List Int → List Byte → Nat → Except Nat (State × Nat × Bool)
  | [], _, n => .ok (s, n, true)
  | o :: os, bs, n =>
    match s.fabWrite dst o (bs.take (wholeGrains (dst.addr + o) (bs.take b).length b)) with
    | .error a => .error a
    | .ok (t, k, false) => .ok (t, n + k, false)
    | .ok (t, k, true) => t.fabRowsIn dst b os (bs.drop b) (n + k)

/-! ### Tiles (R29, R280, R413, R414) -/

/-- A row that the fabric engine brings lands as one tile write. -/
def State.fabTileRow (s : State) (h : W32) (row off : Nat) (bs : List Byte) : RemoteStatus × State :=
  let r := tileRef h
  let x := s.buf r.cl r.b
  if !r.inRange ∨ x.gen ≠ r.gen then (.stale, s)
  else if x.state ≠ .open_ then (.closed, s)
  else if x.rows ≤ row ∨ 64 * x.pitch < off + bs.length then (.bounds, s)
  else (.done, s.tileWrite r.cl r.b row off bs)

/-- A seal that reaches the control word (R250, R414). -/
def State.fabSealAt (s : State) (h : W32) : RemoteStatus × State :=
  let r := tileRef h
  if !r.inRange ∨ (s.buf r.cl r.b).gen ≠ r.gen then (.stale, s)
  else match s.sealTile r.cl r.b with
  | .stale => (.stale, s)
  | .already => (.already, s)
  | .domain => (.domain, s)
  | .empty t => (.empty, t)
  | .sealed t _ => (.done, t)

/-- Tile rows that another device sends, from row `i` of the tile address: the state, the bytes delivered, and how they ended. -/
def State.tileRowsIn (s : State) (t : TileAddr) (b : Nat) : List (List Byte) → Nat → State × Nat × RemoteStatus
  | [], i => (s, i * b, .done)
  | r :: rs, i => match s.fabTileRow t.handle (t.row + i) t.off r with
    | (.done, s') => s'.tileRowsIn t b rs (i + 1)
    | (st, s') => (s', i * b, st)

/-- The rows of FAB.TPUT on this device (R413). -/
def State.tputRows (s : State) (src : End) (t : TileAddr) (b : Nat) : List Int → Nat → Except Nat FabRun
  | [], i => .ok ⟨s, 1, i * b⟩
  | o :: os, i =>
    let r := s.endBytes src b o
    match r.2 with
    | .unmapped a => .error a
    | .error key => .ok ⟨s.memError key, 0x10, i * b⟩
    | .ok _ => match s.fabTileRow t.handle (t.row + i) t.off r.1 with
      | (.done, s') => s'.tputRows src t b os (i + 1)
      | (st, s') => .ok ⟨s', fabCode st, i * b⟩

/-! ### Commands performed (R411 to R415, R420) -/

/-- An endpoint of a queued command on this device. -/
def State.cmdEnd (s : State) (u : Nat) (w : Option LatchedWin) (v : W64) : Option End :=
  match w with
  | some x => some (.desc x.pages (x.vbase + winOff v.toNat))
  | none => (s.resolve u v 1).map .mesh

/-- The completion word is written, the command leaves its queue, and waiters for an entry try again (R420). -/
def State.fabEnds (s : State) (u c : Nat) (k : FabCmd) (status flags count : Nat) : State :=
  let t := s.putCw u k.cw.toNat (fabWord status c flags k.seq count)
  let x := t.ctx u c
  (t.setCtx u c { x with queue := x.queue.filter (fun e => e != k) }).wakeQueues

def State.send (s : State) (dev : Nat) (rs : List RemoteRequest) : State :=
  { s with outbox := s.outbox ++ rs.map (OutMsg.request dev) }

/-- What another device answers to a transfer of `total` bytes of which `sent` could be read. -/
def remoteEnd (s : State) (r : RemoteReply) (sent total : Nat) (err : Option Nat) : FabRun :=
  if r.status = .done then
    match err with
    | some key => ⟨s.memError key, 0x10, sent⟩
    | none => ⟨s, 1, total⟩
  else ⟨s, fabCode r.status, min r.count sent⟩

/-- The endpoint that a request to another device names: a window address, or the place of a mesh address (R17). -/
def State.farEnd (s : State) (u : Nat) (v : W64) (win : Bool) : W64 :=
  if win then v else match s.resolve u v 1 with | some p => p.mesh | none => v

/-- FAB.PUT, FAB.GET and FAB.PUTS. A command to another device is one request there: it is checked and performed as a whole, up to
its first fault (R408, R421). -/
def State.runMove (s : State) (u : Nat) (k : FabCmd) (dev : Nat) (r : RemoteReply) : Except Nat FabRun :=
  let g := k.geom.toNat
  let b := (fabRows k.fn g).2
  let rows := (locOffs k.fn g k.aux.toNat).zip (remOffs k.fn g k.aux.toNat)
  let win := nb g 63
  let total := (fabRows k.fn g).1 * b
  match s.cmdEnd u k.locWin k.loc with
  | none => .ok ⟨s, 0x19, 0⟩
  | some loc =>
    if dev = s.devNum then
      match s.cmdEnd u k.remWin k.rem with
      | none => .ok ⟨s, 0x19, 0⟩
      | some rem => if k.fn = 0x11 then s.fabMove rem loc b [(0, 0)] 0 else s.fabMove loc rem b rows 0
    else if k.fn = 0x11 then
      let t := s.send dev [.read s.devNum (s.farEnd u k.rem win) win b]
      match t.fabWrite loc 0 (r.data.take (wholeGrains loc.addr (r.data.take b).length b)) with
      | .error a => .error a
      | .ok (t', n, false) => .ok ⟨t', 0x11, n⟩
      | .ok (t', n, true) => .ok (if r.status = .done then ⟨t', 1, n⟩ else ⟨t', fabCode r.status, n⟩)
    else
      let q := s.fabRead loc b (rows.map (fun e => (e.1, (k.rem.toNat : Int) + e.2)))
      match q.2 with
      | .unmapped a => .error a
      | _ =>
        let t := s.send dev [.write s.devNum (s.farEnd u k.rem win) win (fabRows k.fn g).1 b
          (if k.fn = 0x12 then nf k.aux.toNat 32 32 else 0) q.1]
        .ok (remoteEnd t r q.1.length total q.2.key)

/-- FAB.TPUT. -/
def State.runTput (s : State) (u : Nat) (k : FabCmd) (dev : Nat) (r : RemoteReply) : Except Nat FabRun :=
  let g := k.geom.toNat
  let n := fabRows 0x13 g
  let offs := locOffs 0x13 g k.aux.toNat
  match s.cmdEnd u k.locWin k.loc, tileAddr k.rem false with
  | some loc, some t =>
    if dev = s.devNum then
      match s.tputRows loc t n.2 offs 0 with
      | .error a => .error a
      | .ok x =>
        if x.status = 1 ∧ k.sealed then
          let z := x.s.fabSealAt t.handle
          .ok ⟨z.2, fabCode z.1, x.count⟩
        else .ok x
    else
      let q := s.fabRead loc n.2 (offs.map (fun o => (o, 0)))
      let rows := q.1.length / n.2
      match q.2 with
      | .unmapped a => .error a
      | _ =>
        let t1 := s.send dev [.tileRows s.devNum k.rem n.2 (q.1.take (rows * n.2)) (k.sealed && q.2.key.isNone)]
        .ok (if r.status = .already ∨ r.status = .empty ∨ r.status = .domain then ⟨t1, fabCode r.status, n.1 * n.2⟩
          else remoteEnd t1 r (rows * n.2) (n.1 * n.2) q.2.key)
  | _, _ => .ok ⟨s, 0x19, 0⟩

/-- One command performed; `r` is what another device answers. -/
def State.runFab (s : State) (u : Nat) (k : FabCmd) (r : RemoteReply) : Except Nat FabRun :=
  match s.cmdDev u k with
  | none => .ok ⟨s, 0x1A, 0⟩
  | some dev =>
    if k.noWin then .ok ⟨s, 0x19, 0⟩
    else if dev ≠ s.devNum ∧ s.routeless dev then .ok ⟨s, 0x1A, 0⟩
    else if k.fn = 0x14 then
      let h : W32 := k.opnd.truncate 32
      if dev = s.devNum then let z := s.fabSealAt h; .ok ⟨z.2, fabCode z.1, 0⟩
      else .ok ⟨s.send dev [.seal s.devNum h], fabCode r.status, 0⟩
    else if k.fn = 0x13 then s.runTput u k dev r
    else s.runMove u k dev r

/-- The answer to a command to another device fits it: a read that is done brings all its bytes. -/
def fitsReply (k : FabCmd) (r : RemoteReply) : Bool :=
  decide (k.fn ≠ 0x11) || decide (r.status ≠ .done) || decide (r.data.length = nf k.geom.toNat 0 32)

/-- FAB_COMMAND_COMPLETE: the oldest transfer or seal of a context is performed and completes. A seal, or a transfer with one,
waits for the strand's earlier commands at its device, and every command for an earlier one of its context, an all-reduce among
them, that writes to the same device (R414, R415). -/
def execFabCommandComplete (u ctx : Nat) (r : RemoteReply) (s : State) : Out :=
  match (s.ctx u ctx).queue.find? (fun k => decide (k.fn ≠ 0x15)) with
  | none => .next s
  | some k =>
    let seals := decide (k.fn = 0x14) || (decide (k.fn = 0x13) && k.sealed)
    let held := seals && (match s.cmdDev u k with | some d => s.fabPending u k.slot d k.order | none => false)
    let remote := decide (s.cmdDev u k ≠ some s.devNum)
    if held || s.fabBehind u ctx k || (remote && !fitsReply k r) then .next s
    else match s.runFab u k r with
    | .error a => .fault (.unmappedPhysical a)
    | .ok x => .next (x.s.fabEnds u ctx k x.status 0 x.count)

/-! ### Replies (R404, R416) -/

/-- The memory-error trap of an access to another device. -/
def remoteError (op : RemoteOp) (ea : W64) : Trap := { code := 0x14, eval := ea, wr := op.writes }

/-- REMOTE_REPLY: the reply to a load, store or atomic of a waiting slot. A reply that fits no access changes nothing. -/
def execRemoteReply (u slot : Nat) (r : RemoteReply) (s : State) : Out :=
  match (s.slotOf u slot).wait with
  | .remote op =>
    let lost := decide (r.status = .memerr) || decide (r.status = .linkdown)
    match op with
    | .load d n x ea =>
      if r.status = .done then s.wake u slot (fun t => t.gives d (extended n (leNat (r.data.take n)) x) t.restL)
      else if lost then s.wake u slot (fun _ => .trap (remoteError op ea)) else .next s
    | .store x ea =>
      if r.status = .done then s.wake u slot (fun t => .ok t t.restL)
      else if r.status = .closed then s.wake u slot (fun _ => .trap (closedAt r.value x))
      else if lost then s.wake u slot (fun _ => .trap (remoteError op ea)) else .next s
    | .atomic d code ord sc ea =>
      if r.status = .done then
        s.wake u slot (fun t =>
          let t0 := if ord = .seqCst then t.setClock u (t.clockOf u + 1) else t
          let t1 := if orderAcqs ord then t0.acquire u slot sc else t0
          .ok (if code ≠ 1 then t1.writeG d r.value else t1) (t.restL + if orderAcqs ord then acqCost u sc else 0))
      else if r.status = .closed then s.wake u slot (fun _ => .trap (closedAt r.value d))
      else if lost then s.wake u slot (fun _ => .trap (remoteError op ea)) else .next s
    | .fab d code rem =>
      if r.status = .done ∨ r.status = .window ∨ r.status = .closed ∨ lost then
        s.wake u slot (fun t => t.fabAtomEnd d code rem r.status r.value.toNat r.clock t.restL)
      else .next s
    | .value d _ ea =>
      if r.status = .done then s.wake u slot (fun t => t.gives d r.value t.restL)
      else if lost then s.wake u slot (fun _ => .trap (remoteError op ea)) else .next s
  | _ => .next s

/-! ### Requests of other devices (R404, R408, R411 to R416) -/

/-- The answer goes out. -/
def State.answer (s : State) (dev : Nat) (st : RemoteStatus) (v : Nat) (data : List Byte) (n : Nat) (clock : W64 := 0) : State :=
  { s with outbox := s.outbox ++ [OutMsg.reply dev ⟨st, w64 v, data, n, clock⟩] }

/-- The endpoint of a request for rows of `b` bytes at the listed offsets, all of them checked before any byte moves (R408): a mesh
address or a window of this device. -/
def State.reqEnd (s : State) (dev : Nat) (ep : W64) (win w : Bool) (b : Nat) (offs : List Int) : Except RemoteStatus End :=
  if win then match s.windowFor dev (winNo ep.toNat) w (winOff ep.toNat) b offs with
    | some x => .ok (.desc x.pages (x.vbase + winOff ep.toNat))
    | none => .error .window
  else match s.resolve 0 ep 1 with
    | some p => if decide (p.dev = s.devNum) && s.rowsFit 0 ep.toNat b offs then .ok (.mesh p) else .error .bounds
    | none => .error .bounds

/-- A write that found its buffer not OPEN answers with the buffer's current handle (R30, R235). -/
def State.handleAt (s : State) (e : End) (n : Nat) : Nat :=
  match e with
  | .mesh p => (s.handleOf p.cl (Place.buf { p with off := p.off + n })).toNat
  | .desc _ _ => 0

/-- The device that makes a request. -/
def requester : RemoteRequest → Nat
  | .read d _ _ _ => d
  | .write d _ _ _ _ _ _ => d
  | .tileRows d _ _ _ _ => d
  | .seal d _ => d
  | .atomic d _ _ _ _ _ _ _ => d
  | .post d _ _ _ _ => d
  | .taskdec d _ _ => d

/-- FAB_REMOTE_REQUEST: the target device checks the request of another member, performs it and answers. -/
def execFabRemoteRequest (q : RemoteRequest) (s : State) : Out :=
  if !s.mgmt.run || !s.member (requester q) || decide (requester q = s.devNum) then .next s
  else match q with
  | .read dev ep win n => match s.reqEnd dev ep win false n [0] with
    | .error st => .next (s.answer dev st 0 [] 0)
    | .ok e =>
      let r := s.endBytes e n 0
      match r.2 with
      | .unmapped a => .fault (.unmappedPhysical a)
      | .error key => .next ((s.memError key).answer dev .memerr 0 r.1 r.1.length)
      | .ok _ => .next (s.answer dev .done 0 r.1 n)
  | .write dev ep win n b stride bs => match s.reqEnd dev ep win true b (rowOffs n stride) with
    | .error st => .next (s.answer dev st 0 [] 0)
    | .ok e => match s.fabRowsIn e b ((rowOffs n stride).take ((bs.length + b - 1) / b)) bs 0 with
      | .error a => .fault (.unmappedPhysical a)
      | .ok (t, k, full) => .next (if full then t.answer dev .done 0 [] k else t.answer dev .closed (t.handleAt e k) [] k)
  | .tileRows dev v b bs last => match tileAddr v false with
    | none => .next (s.answer dev .bounds 0 [] 0)
    | some a =>
      let z := s.tileRowsIn a b (chunksN b (bs.length / b) bs) 0
      if z.2.2 = .done ∧ last then
        let y := z.1.fabSealAt a.handle
        .next (y.2.answer dev y.1 0 [] z.2.1)
      else .next (z.1.answer dev z.2.2 0 [] z.2.1)
  | .seal dev h =>
    let z := s.fabSealAt h
    .next (z.2.answer dev z.1 0 [] 0)
  | .atomic dev ep win code z n m clock =>
    if win then match s.atomWindow (fun t _ => t) dev ep.toNat code z n.toNat m.toNat clock with
      | .error a => .fault (.unmappedPhysical a)
      | .ok r => .next (r.state.answer dev r.status r.value [] 0 r.clock)
    else match s.resolve 0 ep z.bytes with
      | none => .next (s.answer dev .bounds 0 [] 0)
      | some p =>
        if p.dev ≠ s.devNum then .next (s.answer dev .bounds 0 [] 0)
        else
          let r := s.atomPlace p code z n.toNat m.toNat
          .next (r.state.answer dev r.status r.value [] 0)
  | .post dev core eq w clock => match s.postEq core (eq % 4) w .domain with
    | some t => .next ((t.setClock core (maxW (t.clockOf core) clock)).answer dev .done 1 [] 0)
    | none => .next (s.answer dev .done 0 [] 0)
  | .taskdec dev core off =>
    let key := localBase core + off
    if s.bad key 8 then .next ((s.memError key).answer dev .memerr 0 [] 0)
    else match s.decCell key with
    | some (n, t) => .next (t.answer dev .done n [] 0)
    | none => .next (s.answer dev .done (2 ^ 64 - 1) [] 0)

/-! ### All-reduce (R418, R419) -/

/-- One step of an operation on two elements, with its flags. -/
def aredStep (op : Nat) (a b : W64) : W64 × W32 :=
  let f (r : FRes) : W64 × W32 := (w64 r.1, r.2)
  match op with
  | 0 => f (fpAdd 23 0 (fpOf a.toNat) (fpOf b.toNat))
  | 1 => f (fpMin a.toNat b.toNat true)
  | 2 => f (fpMin a.toNat b.toNat false)
  | 3 => (a + b, 0)
  | 4 => (if a.slt b then b else a, 0)
  | 5 => (if b.slt a then b else a, 0)
  | 6 => (a &&& b, 0)
  | 7 => (a ||| b, 0)
  | _ =>
    let x := a.toNat
    let y := b.toNat
    let r := mergeSums 0 (nf x 0 32) (nf y 0 32) (sfield 32 (nf x 32 32)) (sfield 32 (nf y 32 32))
    (w64 (wrapN 32 r.2 * 2 ^ 32 + r.1.1), r.1.2)

/-- Elements combined from left to right; none for no element. -/
def aredFold (op : Nat) : List W64 → W64 × W32
  | [] => (0, 0)
  | x :: xs => xs.foldl (fun acc y => let r := aredStep op acc.1 y; (r.1, acc.2 ||| r.2)) (x, 0)

/-- A NaN in a result is canonical, that of a scaled-sum state too (R90, R418). -/
def aredCanon (op : Nat) (v : W64) : W64 :=
  let nan := (fpOf (nf v.toNat 0 32)).isNaN
  if op ≤ 2 ∧ nan then w64 cNaN else if op = 8 ∧ nan then w64 (nf v.toNat 32 32 * 2 ^ 32 + cNaN) else v

/-- One element over the members in rank order: blocks of 16, then the blocks (R418). -/
def aredElement (op : Nat) (xs : List W64) : W64 × W32 :=
  let blocks := (chunksN 16 ((xs.length + 15) / 16) xs).map (aredFold op)
  let r := aredFold op (blocks.map (·.1))
  (aredCanon op r.1, blocks.foldl (fun f e => f ||| e.2) r.2)

/-- The elements of the result and their flags. -/
def aredResult (op n : Nat) (parts : List (List W64)) : List W64 × W32 :=
  let es := (List.range n).map (fun i => aredElement op (parts.map (fun p => nth 0 p i)))
  (es.map (·.1), es.foldl (fun f e => f ||| e.2) 0)

/-- The oldest instance of a group to which this device has contributed, with its command. -/
def State.aredOldest (s : State) (g : Nat) : Option (Instance_ × FabCmd) :=
  match s.fabric.insts.find? (fun i => i.group == g) with
  | none => none
  | some i => ((s.ctx i.unit i.ctx).queue.find? (fun k => k.seq == i.seq && k.fn == 0x15)).map (fun k => (i, k))

/-- The instance is over. -/
def State.dropInst (s : State) (i : Instance_) : State :=
  { s with fabric := { s.fabric with insts := s.fabric.insts.filter (fun x => x != i) } }

/-- Contributions in rank order. -/
def rankOrder (own : Contribution) (others : List Contribution) : List Contribution :=
  (List.range 256).filterMap (fun d => if d = own.dev then some own else others.find? (fun c => c.dev == d))

/-- ARED_INSTANCE_COMPLETE: every other member's contribution has arrived. -/
def execAredInstanceComplete (g : Nat) (others : List Contribution) (s : State) : Out :=
  match s.aredOldest g with
  | none => .next s
  | some (i, k) =>
    let gr := s.group g
    let v := k.opnd.toNat
    let op := aredOp v
    let n := aredCount v
    let own : Contribution := { dev := s.devNum, op := op, count := n, members := gr.members, data := k.data }
    let want := (onesAt gr.members.toNat 256).filter (fun d => decide (d ≠ s.devNum))
    let size := want.length + 1
    let all_ := rankOrder own others
    if !(decide (all_.length = size) && decide (others.length = want.length) && others.all (fun c => want.contains c.dev))
      || s.fabBehind i.unit i.ctx k then .next s
    else if others.any (fun c => decide (c.op ≠ op) || decide (c.count ≠ n) || decide (c.members ≠ gr.members)) then
      .next ((s.dropInst i).fabEnds i.unit i.ctx k 0x18 0 size)
    else
      let r := aredResult op n (all_.map (fun c => c.data))
      let bs := r.1.flatMap (fun e => leBytes (aredBytes op) e.toNat)
      if op = 9 then .next ((s.dropInst i).fabEnds i.unit i.ctx k 1 0 size)
      else match s.resolve i.unit k.rem 1 with
      | none => .next s
      | some p => match s.fabWrite (.mesh p) 0 bs with
        | .error a => .fault (.unmappedPhysical a)
        | .ok (t, _, full) => .next ((t.dropInst i).fabEnds i.unit i.ctx k (if full then 1 else 0x11) (nf r.2.toNat 0 5) size)

/-- ARED_TIMEOUT (R419). -/
def execAredTimeout (g : Nat) (s : State) : Out :=
  match s.aredOldest g with
  | none => .next s
  | some (i, k) =>
    if (s.group g).tmo = 0 then .next s
    else .next ((s.dropInst i).fabEnds i.unit i.ctx k 0x1B 0 (ones (s.group g).members.toNat 256))

/-! ### Links and Port B (R422 to R424) -/

def State.link (s : State) (n : Nat) : Link := mget {} s.fabric.links n
def State.setLink (s : State) (n : Nat) (l : Link) : State :=
  if n < 16 then { s with fabric := { s.fabric with links := mset {} s.fabric.links n l } } else s

/-- A counter that holds at its largest value. -/
def holdAt (top v : Nat) : Nat := if v < top then v + 1 else v

/-- FLIT_CRC_RETRY: a retry changes only time; RETRY counts. -/
def execFlitCrcRetry (link : Nat) (s : State) : Out :=
  let l := s.link link
  .next (if 2 ≤ l.state then s.setLink link { l with retry := holdAt 0xFFFF l.retry } else s)

/-- LINK_LANE_LOSS: the link runs on at 4 lanes. -/
def execLinkLaneLoss (link : Nat) (s : State) : Out :=
  let l := s.link link
  .next (if 2 ≤ l.state then s.setLink link { l with state := 3, lanes := min l.lanes 4, ldown := holdAt 0xFF l.ldown } else s)

/-- Commands to devices that no route leads to, with core and context. -/
def State.cutOff (s : State) : List (Nat × Nat × FabCmd) :=
  s.cores.flatMap (fun e => e.2.fab.flatMap (fun x => x.2.queue.filterMap (fun k =>
    match s.cmdDev e.1 k with
    | some d => if d ≠ s.devNum ∧ s.routeless d then some (e.1, x.1, k) else none
    | none => none)))

/-- They end with LINKDOWN (R422). -/
def State.endCut (s : State) : State := s.cutOff.foldl (fun (x : State) e => x.fabEnds e.1 e.2.1 e.2.2 0x1A 0 0) s

/-- LINK_DOWN: the link takes no further traffic; commands to devices without a route end with LINKDOWN. -/
def execLinkDown (link : Nat) (lost : List Nat) (s : State) : Out :=
  let t := s.setLink link { s.link link with state := 0, lanes := 0 }
  let fresh := lost.filter (fun d => !t.fabric.noRoute.contains d && decide (d ≠ s.devNum))
  .next { t with fabric := { t.fabric with noRoute := t.fabric.noRoute ++ fresh.eraseDups } }.endCut

/-- LINK_UP: the link carries traffic on all its lanes; routes run over it. A link that has retrained three times within 60 s stays
DOWN (R494). -/
def execLinkUp (link : Nat) (s : State) : Out :=
  let t := s.setLink link { s.link link with state := 2, lanes := 8 }
  .next (if link < 16 ∧ (mget [] s.mgmt.retrains link).length < 3 then { t with fabric := { t.fabric with noRoute := [] } } else s)

/-- PORT_B_DOWN: every pool access finds poisoned data (R424). -/
def execPortBDown (s : State) : Out := .next { s with fabric := { s.fabric with portB := 0 } }

/-- A decoder setting of R485: base and size multiples of 256 MiB, the range inside the 16 TiB of the pool (R424, R486). -/
def hdmFits (e : W64 × W64) : Bool :=
  let a := e.1.toNat
  let b := e.2.toNat
  !nb a 0 || (decide (nf a 1 27 = 0) && decide (nf a 52 12 = 0) && decide (poolStart ≤ a) && decide (a / 2 ^ 28 * 2 ^ 28 + nf b 0 52 ≤ poolEnd)
    && decide (nf b 0 28 = 0)
    && decide (nf b 52 4 ≤ 6) && decide (nf b 56 3 ≤ 4) && decide (nf b 59 5 = 0))

/-- PORT_B_UP: the firmware body programs the decoders from the memory devices that it finds (R424, R486). -/
def execPortBUp (hdm : List (W64 × W64)) (s : State) : Out :=
  if s.mgmt.bootst = .ready ∧ hdm.length ≤ 16 ∧ hdm.all hdmFits then
    .next { s with
      fabric := { s.fabric with portB := 2 }
      mgmt := { s.mgmt with hdm := hdm.zipIdx.foldl (fun m e => mset (0, 0) m e.2 e.1) [] } }
  else .next s

end Sys2Proof.Machine
end

