-- ==== Sys2Proof/WellFormed.lean ====
section
/-! DEFINITION. Which instruction terms stand for an assigned word: the limits that the encodings give beyond the
widths of their fields (R188 and the rules of each instruction; R332 for press words). -/
namespace Sys2Proof

/-- Width of a bit field in bits: len is held as len - 1 (R195). -/
def fieldFits (l p : BitVec 6) : Bool := p.toNat + l.toNat + 1 ≤ 64

/-- ORD allowed for an LDA (R237). -/
def Order.loadOk : Order → Bool
  | .relaxed | .acquire | .seqCst => true
  | .release | .acqRel => false

/-- ORD allowed for an STA (R237). -/
def Order.storeOk : Order → Bool
  | .relaxed | .release | .seqCst => true
  | .acquire | .acqRel => false

/-- A mesh atomic names no handle (R236). -/
def handleOk (m : Bool) (h : HReg) : Bool := !m || h == 0

/-- sel of TSTAT (R248): without acquire no scope; with acquire an assigned scope. -/
def tstatOk (s : BitVec 5) : Bool :=
  if s.getLsbD 1 then s.toNat / 4 ≤ 5 else s.toNat / 4 == 0

/-- Limits of MMA and MMAK checked at decode (R337). -/
def MOp.ok (x : MOp) : Bool :=
  x.trow.toNat + x.n1.toNat + 1 ≤ 64 && x.brow.toNat + x.n1.toNat + 1 ≤ 32 &&
    x.koff.toNat + x.kx1.toNat + 1 ≤ 256

/-- A V word whose unused fields are zero (R346): which of VA, VB and SS the instruction names. -/
def VOp.ok (x : VOp) (va vb ss : Bool) : Bool :=
  (va || x.va == 0) && (vb || x.vb == 0) && (ss || x.ss == 0)

/-- A V word that must have TY 0. -/
def VOp.f32Only (x : VOp) : Bool := x.ty == .f32

/-- VCVT between the floating formats: IF 0, P 0 to 1, SS 0 without SC (R351). -/
def CvtMode.floatOk (m : CvtMode) (x : VOp) : Bool :=
  m.ifmt == 0 && m.p.toNat ≤ 1 && (m.sc || x.ss == 0) && x.vb == 0 && x.f32Only

/-- VCVT with an integer format: IF 2 to 5, P 0 to 3 for 8-bit formats (R351). -/
def CvtMode.intOk (m : CvtMode) (x : VOp) : Bool :=
  (m.ifmt == 4 || m.ifmt == 5 || ((m.ifmt == 2 || m.ifmt == 3) && m.p.toNat ≤ 3)) &&
    (m.sc || x.ss == 0) && x.vb == 0 && x.f32Only

/-- SEL of SGET (R363). -/
def sgetSel (sel : BitVec 8) : Bool :=
  let n := sel.toNat
  n ≤ 8 || (16 ≤ n && n ≤ 28)

/-- SEL of SSET (R363). -/
def ssetSel (sel : BitVec 8) : Bool := sel.toNat ≤ 8

/-- The two destinations of a compare differ, or both are c0 (R303). -/
def cmpDest (cn cm : BitVec 4) : Bool := cn != cm || cn == 0

/-- The instruction is one that an assigned word encodes; events are always well formed. -/
def Instr.wf : Instr → Bool
  | .extu _ _ l p | .exts _ _ l p | .ins _ _ l p => fieldFits l p
  | .call n _ => n.toNat ≤ 64
  | .callr _ n => n.toNat ≤ 64
  | .ll _ _ z x _ | .lm _ _ z x _ => !(z == .d && x)
  | .lda _ _ h r _ _ m => r.loadOk && handleOk m h
  | .sta _ _ h r _ _ m => r.storeOk && handleOk m h
  | .amoswap _ _ h _ _ _ m | .amocas _ _ h _ _ _ m | .amoadd _ _ h _ _ _ m | .amoand _ _ h _ _ _ m
  | .amoor _ _ h _ _ _ m | .amoxor _ _ h _ _ _ m | .amomin _ _ h _ _ _ m | .amomax _ _ h _ _ _ m
  | .amominu _ _ h _ _ _ m | .amomaxu _ _ h _ _ _ m => handleOk m h
  | .amofadd _ _ h _ _ m => handleOk m h
  | .spawn _ _ b => b.toNat ≤ 28
  | .msend _ _ t => t.toNat ≤ 62
  | .mfsr _ n => n.toNat ≤ 12
  | .mtsr _ n => n.toNat ≤ 12
  | .xget _ kind n => kind == .g || n == 0
  | .xput _ kind n => kind == .g || n == 0
  | .tstat _ _ s => tstatOk s
  | .cpySetr _ _ n => n.toNat ≤ 6
  | .cpyTile _ a b _ o _ => o || (a == 0 && b == 0)
  | .lkGetc _ n => n.toNat ≤ 4
  | .fabSetr _ _ n => n.toNat ≤ 4
  | .fabGetr _ _ n => n.toNat ≤ 5
  | .mma x => x.ok && x.koff == 0
  | .mmak x => x.ok
  | .abias _ _ row0 _ n1 => row0.toNat + n1.toNat + 1 ≤ 32
  | .astore _ _ _ row0 n1 _ => row0.toNat + n1.toNat + 1 ≤ 32
  | .vadd x | .vsub x | .vmul x | .vfma x | .vmin x | .vmax x => x.ok true true false
  | .vabs x | .vneg x | .vredSum x | .vredMax x | .vrcp x | .vrsq x | .vexp2 x | .vlog2 x | .vtanh x
  | .vgelu x => x.ok true false false
  | .vscl x | .vadds x => x.ok true false true
  | .vmov x => x.ok true false false && x.f32Only
  | .vbcast x => x.ok false false true
  | .vrope x => x.f32Only
  | .vcvtBf x m | .vcvtFb x m => m.floatOk x
  | .vcvtFi x m | .vcvtIf x m => m.intOk x
  | .bload _ _ _ k0 n1 bw => 8 * k0.toNat + n1.toNat + 1 ≤ 256 && bw.toNat ≤ 2
  | .scmp _ cn cm _ _ cond => cond.toNat ≤ 5 && cmpDest cn cm
  | .scmpi _ cn cm _ cond _ => cond.toNat ≤ 5 && cmpDest cn cm
  | .sget _ _ n => sgetSel n
  | .sset _ n _ => ssetSel n
  | _ => true

/-- Instructions of the strand and lookup engines: one 32-bit word each (R182). -/
def Instr.WellFormed (i : Instr) : Prop := i.wf = true

end Sys2Proof
end

