-- ==== Sys2Proof/Decode.lean ====
section
/-! DEFINITION. Decoding a strand word (06_strand_engine_compute.md R182 to R188 and the encoding tables of the other
chapters), decoding a press bundle (11_matrix_unit_bundles.md R328 to R332), and the encoders written from the same tables. -/
namespace Sys2Proof

/-- Why a strand word is unassigned (R188). -/
inductive DecodeError where
  /-- a reserved major opcode (R186) -/
  | major
  /-- a group code, order or scope that its major does not assign -/
  | code
  /-- a must-be-zero field that is not zero (R183, R188) -/
  | mustBeZero
  /-- an immediate or operand outside the limit of its instruction (R188) -/
  | limit
deriving DecidableEq, Repr

/-! ### Fields of a word (R183) -/

def opF (w : W32) : BitVec 6 := w.extractLsb' 26 6
def gdF (w : W32) : BitVec 5 := w.extractLsb' 21 5
def gaF (w : W32) : BitVec 5 := w.extractLsb' 16 5
def gbF (w : W32) : BitVec 5 := w.extractLsb' 11 5
def fnF (w : W32) : BitVec 11 := w.extractLsb' 0 11
def imm16F (w : W32) : BitVec 16 := w.extractLsb' 0 16
def hF (w : W32) : BitVec 4 := w.extractLsb' 12 4
def imm12F (w : W32) : BitVec 12 := w.extractLsb' 0 12
def off26F (w : W32) : BitVec 26 := w.extractLsb' 0 26

/-- Format R, and format X with sel and fn in its low 11 bits (R183). -/
def mkR (op : BitVec 6) (d a b : BitVec 5) (lo : BitVec 11) : W32 := op ++ d ++ a ++ b ++ lo
/-- Formats I and B (R183). -/
def mkI (op : BitVec 6) (d a : BitVec 5) (imm : BitVec 16) : W32 := op ++ d ++ a ++ imm
/-- Format M (R183), also the layout of majors 0x32 to 0x35. -/
def mkM (op : BitVec 6) (d a : BitVec 5) (h : BitVec 4) (imm : BitVec 12) : W32 := op ++ d ++ a ++ h ++ imm
/-- Format J (R183). -/
def mkJ (op : BitVec 6) (off : BitVec 26) : W32 := op ++ off

/-! ### Codes of the named fields -/

def isOne (b : BitVec 1) : Bool := b == 1
def FpFmt.bit : FpFmt → BitVec 1
  | .s => 0 | .b => 1
def FpFmt.ofBit (b : BitVec 1) : FpFmt := if isOne b then .b else .s
def AtSize.bit : AtSize → BitVec 1
  | .w => 0 | .d => 1
def AtSize.ofBit (b : BitVec 1) : AtSize := if isOne b then .d else .w
def MemSize.bits : MemSize → BitVec 2
  | .b => 0 | .h => 1 | .w => 2 | .d => 3
def MemSize.ofBits (b : BitVec 2) : MemSize :=
  match b.toNat with
  | 0 => .b | 1 => .h | 2 => .w | _ => .d
def FenceKind.bits : FenceKind → BitVec 2
  | .acq => 0 | .rel => 1 | .acqRel => 2 | .sc => 3
def FenceKind.ofBits (b : BitVec 2) : FenceKind :=
  match b.toNat with
  | 0 => .acq | 1 => .rel | 2 => .acqRel | _ => .sc
def XKind.bits : XKind → BitVec 2
  | .g => 0 | .k => 1 | .pc => 2 | .fps => 3
def XKind.ofBits (b : BitVec 2) : XKind :=
  match b.toNat with
  | 0 => .g | 1 => .k | 2 => .pc | _ => .fps
def Order.bits : Order → BitVec 3
  | .relaxed => 0 | .acquire => 1 | .release => 2 | .acqRel => 3 | .seqCst => 4
def Order.ofBits? (b : BitVec 3) : Option Order :=
  match b.toNat with
  | 0 => some .relaxed | 1 => some .acquire | 2 => some .release | 3 => some .acqRel | 4 => some .seqCst
  | _ => none
def Scope.bits : Scope → BitVec 3
  | .strand => 0 | .core => 1 | .cluster => 2 | .stack => 3 | .device => 4 | .domain => 5
def Scope.ofBits? (b : BitVec 3) : Option Scope :=
  match b.toNat with
  | 0 => some .strand | 1 => some .core | 2 => some .cluster | 3 => some .stack | 4 => some .device
  | 5 => some .domain
  | _ => none

/-- The instruction, if the must-be-zero condition holds. -/
def mbz (c : Bool) (i : Instr) : Except DecodeError Instr := if c then .ok i else .error .mustBeZero

/-! ### Strand words, one group per major

Decoders are `noncomputable` only for Lean's compiler, whose runtime has no constructor tag above 244 (the instruction
type has 403 constructors); the kernel evaluates them. -/

noncomputable section

/-- Major 0x01: integer and logic (R191). -/
def decInteger (d5 a5 b5 : BitVec 5) (lo : BitVec 11) : Except DecodeError Instr :=
  match (lo.extractLsb' 0 6).toNat with
  | 0 => mbz ((lo.extractLsb' 6 5) == 0) (.add d5 a5 b5)
  | 1 => mbz ((lo.extractLsb' 6 5) == 0) (.sub d5 a5 b5)
  | 2 => mbz ((lo.extractLsb' 6 5) == 0) (.and d5 a5 b5)
  | 3 => mbz ((lo.extractLsb' 6 5) == 0) (.or d5 a5 b5)
  | 4 => mbz ((lo.extractLsb' 6 5) == 0) (.xor d5 a5 b5)
  | 5 => mbz ((lo.extractLsb' 6 5) == 0) (.andn d5 a5 b5)
  | 6 => mbz ((lo.extractLsb' 6 5) == 0) (.orn d5 a5 b5)
  | 7 => mbz ((lo.extractLsb' 6 5) == 0) (.xnor d5 a5 b5)
  | 8 => mbz ((lo.extractLsb' 6 5) == 0) (.sll d5 a5 b5)
  | 9 => mbz ((lo.extractLsb' 6 5) == 0) (.srl d5 a5 b5)
  | 0x0a => mbz ((lo.extractLsb' 6 5) == 0) (.sra d5 a5 b5)
  | 0x0b => mbz ((lo.extractLsb' 6 5) == 0) (.rol d5 a5 b5)
  | 0x0c => mbz ((lo.extractLsb' 6 5) == 0) (.ror d5 a5 b5)
  | 0x0d => mbz ((lo.extractLsb' 6 5) == 0) (.min d5 a5 b5)
  | 0x0e => mbz ((lo.extractLsb' 6 5) == 0) (.max d5 a5 b5)
  | 0x0f => mbz ((lo.extractLsb' 6 5) == 0) (.minu d5 a5 b5)
  | 0x10 => mbz ((lo.extractLsb' 6 5) == 0) (.maxu d5 a5 b5)
  | 0x11 => mbz ((lo.extractLsb' 6 5) == 0) (.addw d5 a5 b5)
  | 0x12 => mbz ((lo.extractLsb' 6 5) == 0) (.subw d5 a5 b5)
  | 0x13 => mbz ((lo.extractLsb' 6 5) == 0) (.sllw d5 a5 b5)
  | 0x14 => mbz ((lo.extractLsb' 6 5) == 0) (.srlw d5 a5 b5)
  | 0x15 => mbz ((lo.extractLsb' 6 5) == 0) (.sraw d5 a5 b5)
  | 0x16 => mbz ((lo.extractLsb' 6 5) == 0) (.mul d5 a5 b5)
  | 0x17 => mbz ((lo.extractLsb' 6 5) == 0) (.mulh d5 a5 b5)
  | 0x18 => mbz ((lo.extractLsb' 6 5) == 0) (.mulhu d5 a5 b5)
  | 0x19 => mbz ((lo.extractLsb' 6 5) == 0) (.mulw d5 a5 b5)
  | 0x1a => mbz ((lo.extractLsb' 9 2) == 0) (.sel d5 a5 b5 (lo.extractLsb' 6 3))
  | _ => .error .code

/-- Major 0x02: bit manipulation, CRC and hash (R196). -/
def decBits (d5 a5 b5 : BitVec 5) (lo : BitVec 11) : Except DecodeError Instr :=
  match lo.toNat with
  | 0 => mbz (b5 == 0) (.clz d5 a5)
  | 1 => mbz (b5 == 0) (.ctz d5 a5)
  | 2 => mbz (b5 == 0) (.popc d5 a5)
  | 3 => mbz (b5 == 0) (.brev d5 a5)
  | 4 => mbz (b5 == 0) (.bswap d5 a5)
  | 5 => mbz (b5 == 0) (.sextB d5 a5)
  | 6 => mbz (b5 == 0) (.sextH d5 a5)
  | 7 => mbz (b5 == 0) (.sextW d5 a5)
  | 8 => mbz (b5 == 0) (.zextW d5 a5)
  | 9 => .ok (.crcB d5 a5 b5)
  | 0x0a => .ok (.crcH d5 a5 b5)
  | 0x0b => .ok (.crcW d5 a5 b5)
  | 0x0c => .ok (.crcD d5 a5 b5)
  | 0x0d => .ok (.hmix d5 a5 b5)
  | _ => .error .code

/-- Major 0x03: compares and condition bits (R199). -/
def decCompare (d5 a5 b5 : BitVec 5) (lo : BitVec 11) : Except DecodeError Instr :=
  match lo.toNat with
  | 0 => mbz ((d5.extractLsb' 3 2) == 0) (.ceq (d5.extractLsb' 0 3) a5 b5)
  | 1 => mbz ((d5.extractLsb' 3 2) == 0) (.cne (d5.extractLsb' 0 3) a5 b5)
  | 2 => mbz ((d5.extractLsb' 3 2) == 0) (.clt (d5.extractLsb' 0 3) a5 b5)
  | 3 => mbz ((d5.extractLsb' 3 2) == 0) (.cge (d5.extractLsb' 0 3) a5 b5)
  | 4 => mbz ((d5.extractLsb' 3 2) == 0) (.cltu (d5.extractLsb' 0 3) a5 b5)
  | 5 => mbz ((d5.extractLsb' 3 2) == 0) (.cgeu (d5.extractLsb' 0 3) a5 b5)
  | 6 => mbz ((d5.extractLsb' 3 2) == 0) (.ctst (d5.extractLsb' 0 3) a5 b5)
  | 8 => mbz ((d5.extractLsb' 3 2) == 0 && (a5.extractLsb' 3 2) == 0 && (b5.extractLsb' 3 2) == 0) (.kand (d5.extractLsb' 0 3) (a5.extractLsb' 0 3) (b5.extractLsb' 0 3))
  | 9 => mbz ((d5.extractLsb' 3 2) == 0 && (a5.extractLsb' 3 2) == 0 && (b5.extractLsb' 3 2) == 0) (.kor (d5.extractLsb' 0 3) (a5.extractLsb' 0 3) (b5.extractLsb' 0 3))
  | 0x0a => mbz ((d5.extractLsb' 3 2) == 0 && (a5.extractLsb' 3 2) == 0 && (b5.extractLsb' 3 2) == 0) (.kxor (d5.extractLsb' 0 3) (a5.extractLsb' 0 3) (b5.extractLsb' 0 3))
  | 0x0b => mbz ((d5.extractLsb' 3 2) == 0 && (a5.extractLsb' 3 2) == 0 && (b5.extractLsb' 3 2) == 0) (.kandn (d5.extractLsb' 0 3) (a5.extractLsb' 0 3) (b5.extractLsb' 0 3))
  | 0x0c => mbz ((d5.extractLsb' 3 2) == 0 && (a5.extractLsb' 3 2) == 0 && b5 == 0) (.knot (d5.extractLsb' 0 3) (a5.extractLsb' 0 3))
  | 0x0d => mbz ((d5.extractLsb' 3 2) == 0 && a5 == 0 && b5 == 0) (.kset (d5.extractLsb' 0 3))
  | 0x0e => mbz ((d5.extractLsb' 3 2) == 0 && a5 == 0 && b5 == 0) (.kclr (d5.extractLsb' 0 3))
  | _ => .error .code

/-- Major 0x04: scalar floating point (R202, R203). -/
def decFloat (d5 a5 b5 : BitVec 5) (lo : BitVec 11) : Except DecodeError Instr :=
  match (lo.extractLsb' 0 5).toNat with
  | 0 => mbz ((lo.extractLsb' 6 5) == 0) (.fadd d5 a5 b5 (FpFmt.ofBit (lo.extractLsb' 5 1)))
  | 1 => mbz ((lo.extractLsb' 6 5) == 0) (.fsub d5 a5 b5 (FpFmt.ofBit (lo.extractLsb' 5 1)))
  | 2 => mbz ((lo.extractLsb' 6 5) == 0) (.fmul d5 a5 b5 (FpFmt.ofBit (lo.extractLsb' 5 1)))
  | 3 => mbz ((lo.extractLsb' 6 5) == 0) (.fma d5 a5 b5 (FpFmt.ofBit (lo.extractLsb' 5 1)))
  | 4 => mbz ((lo.extractLsb' 6 5) == 0) (.fmin d5 a5 b5 (FpFmt.ofBit (lo.extractLsb' 5 1)))
  | 5 => mbz ((lo.extractLsb' 6 5) == 0) (.fmax d5 a5 b5 (FpFmt.ofBit (lo.extractLsb' 5 1)))
  | 6 => mbz (b5 == 0 && (lo.extractLsb' 6 5) == 0) (.fabs d5 a5 (FpFmt.ofBit (lo.extractLsb' 5 1)))
  | 7 => mbz (b5 == 0 && (lo.extractLsb' 6 5) == 0) (.fneg d5 a5 (FpFmt.ofBit (lo.extractLsb' 5 1)))
  | 8 => mbz ((lo.extractLsb' 6 5) == 0) (.fcpys d5 a5 b5 (FpFmt.ofBit (lo.extractLsb' 5 1)))
  | 9 => mbz (b5 == 0 && (lo.extractLsb' 6 5) == 0) (.frcp d5 a5 (FpFmt.ofBit (lo.extractLsb' 5 1)))
  | 0x0a => mbz (b5 == 0 && (lo.extractLsb' 6 5) == 0) (.frsq d5 a5 (FpFmt.ofBit (lo.extractLsb' 5 1)))
  | 0x0b => mbz (b5 == 0 && (lo.extractLsb' 6 5) == 0) (.fclass d5 a5 (FpFmt.ofBit (lo.extractLsb' 5 1)))
  | 0x0c => mbz ((d5.extractLsb' 3 2) == 0 && (lo.extractLsb' 6 5) == 0) (.fceq (d5.extractLsb' 0 3) a5 b5 (FpFmt.ofBit (lo.extractLsb' 5 1)))
  | 0x0d => mbz ((d5.extractLsb' 3 2) == 0 && (lo.extractLsb' 6 5) == 0) (.fclt (d5.extractLsb' 0 3) a5 b5 (FpFmt.ofBit (lo.extractLsb' 5 1)))
  | 0x0e => mbz ((d5.extractLsb' 3 2) == 0 && (lo.extractLsb' 6 5) == 0) (.fcle (d5.extractLsb' 0 3) a5 b5 (FpFmt.ofBit (lo.extractLsb' 5 1)))
  | 0x0f => mbz ((d5.extractLsb' 3 2) == 0 && (lo.extractLsb' 6 5) == 0) (.fcun (d5.extractLsb' 0 3) a5 b5 (FpFmt.ofBit (lo.extractLsb' 5 1)))
  | 0x10 => mbz (b5 == 0 && (lo.extractLsb' 5 6) == 1) (.fcvtSB d5 a5)
  | 0x11 => mbz (b5 == 0 && (lo.extractLsb' 5 6) == 0) (.fcvtBS d5 a5)
  | 0x12 => mbz (b5 == 0 && (lo.extractLsb' 7 4) == 0) (.ftow d5 a5 (isOne (lo.extractLsb' 6 1)) (FpFmt.ofBit (lo.extractLsb' 5 1)))
  | 0x13 => mbz (b5 == 0 && (lo.extractLsb' 7 4) == 0) (.ftowu d5 a5 (isOne (lo.extractLsb' 6 1)) (FpFmt.ofBit (lo.extractLsb' 5 1)))
  | 0x14 => mbz (b5 == 0 && (lo.extractLsb' 7 4) == 0) (.ftol d5 a5 (isOne (lo.extractLsb' 6 1)) (FpFmt.ofBit (lo.extractLsb' 5 1)))
  | 0x15 => mbz (b5 == 0 && (lo.extractLsb' 7 4) == 0) (.ftolu d5 a5 (isOne (lo.extractLsb' 6 1)) (FpFmt.ofBit (lo.extractLsb' 5 1)))
  | 0x16 => mbz (b5 == 0 && (lo.extractLsb' 6 5) == 0) (.wtof d5 a5 (FpFmt.ofBit (lo.extractLsb' 5 1)))
  | 0x17 => mbz (b5 == 0 && (lo.extractLsb' 6 5) == 0) (.wutof d5 a5 (FpFmt.ofBit (lo.extractLsb' 5 1)))
  | 0x18 => mbz (b5 == 0 && (lo.extractLsb' 6 5) == 0) (.ltof d5 a5 (FpFmt.ofBit (lo.extractLsb' 5 1)))
  | 0x19 => mbz (b5 == 0 && (lo.extractLsb' 6 5) == 0) (.lutof d5 a5 (FpFmt.ofBit (lo.extractLsb' 5 1)))
  | _ => .error .code

/-- Major 0x1B: bit fields (R195). -/
def decField (d5 a5 : BitVec 5) (imm : BitVec 16) : Except DecodeError Instr :=
  match (imm.extractLsb' 12 4).toNat with
  | 0 => .ok (.extu d5 a5 (imm.extractLsb' 6 6) (imm.extractLsb' 0 6))
  | 1 => .ok (.exts d5 a5 (imm.extractLsb' 6 6) (imm.extractLsb' 0 6))
  | 2 => .ok (.ins d5 a5 (imm.extractLsb' 6 6) (imm.extractLsb' 0 6))
  | _ => .error .code

/-- Major 0x2A: JR, CALLR, RET (R218). -/
def decJump (d5 a5 b5 : BitVec 5) (lo : BitVec 11) : Except DecodeError Instr :=
  match (lo.extractLsb' 7 4).toNat with
  | 0 => mbz (d5 == 0 && b5 == 0 && (lo.extractLsb' 0 7) == 0) (.jr a5)
  | 1 => mbz (d5 == 0 && b5 == 0) (.callr a5 (lo.extractLsb' 0 7))
  | 2 => mbz (d5 == 0 && a5 == 0 && b5 == 0 && (lo.extractLsb' 0 7) == 0) (.ret)
  | _ => .error .code

/-- Major 0x32: atomics and ordered accesses (R236, R237). -/
def decAtomic (d5 a5 : BitVec 5) (h4 : BitVec 4) (lo : BitVec 12) : Except DecodeError Instr :=
  match (lo.extractLsb' 8 4).toNat with
  | 0 => match Order.ofBits? (lo.extractLsb' 5 3), Scope.ofBits? (lo.extractLsb' 2 3) with
      | some r, some c => .ok (.lda d5 a5 h4 r c (AtSize.ofBit (lo.extractLsb' 1 1)) (isOne (lo.extractLsb' 0 1)))
      | _, _ => .error .code
  | 1 => match Order.ofBits? (lo.extractLsb' 5 3), Scope.ofBits? (lo.extractLsb' 2 3) with
      | some r, some c => .ok (.sta d5 a5 h4 r c (AtSize.ofBit (lo.extractLsb' 1 1)) (isOne (lo.extractLsb' 0 1)))
      | _, _ => .error .code
  | 2 => match Order.ofBits? (lo.extractLsb' 5 3), Scope.ofBits? (lo.extractLsb' 2 3) with
      | some r, some c => .ok (.amoswap d5 a5 h4 r c (AtSize.ofBit (lo.extractLsb' 1 1)) (isOne (lo.extractLsb' 0 1)))
      | _, _ => .error .code
  | 3 => match Order.ofBits? (lo.extractLsb' 5 3), Scope.ofBits? (lo.extractLsb' 2 3) with
      | some r, some c => mbz ((d5.extractLsb' 0 1) == 0) (.amocas (d5.extractLsb' 1 4) a5 h4 r c (AtSize.ofBit (lo.extractLsb' 1 1)) (isOne (lo.extractLsb' 0 1)))
      | _, _ => .error .code
  | 4 => match Order.ofBits? (lo.extractLsb' 5 3), Scope.ofBits? (lo.extractLsb' 2 3) with
      | some r, some c => .ok (.amoadd d5 a5 h4 r c (AtSize.ofBit (lo.extractLsb' 1 1)) (isOne (lo.extractLsb' 0 1)))
      | _, _ => .error .code
  | 5 => match Order.ofBits? (lo.extractLsb' 5 3), Scope.ofBits? (lo.extractLsb' 2 3) with
      | some r, some c => .ok (.amoand d5 a5 h4 r c (AtSize.ofBit (lo.extractLsb' 1 1)) (isOne (lo.extractLsb' 0 1)))
      | _, _ => .error .code
  | 6 => match Order.ofBits? (lo.extractLsb' 5 3), Scope.ofBits? (lo.extractLsb' 2 3) with
      | some r, some c => .ok (.amoor d5 a5 h4 r c (AtSize.ofBit (lo.extractLsb' 1 1)) (isOne (lo.extractLsb' 0 1)))
      | _, _ => .error .code
  | 7 => match Order.ofBits? (lo.extractLsb' 5 3), Scope.ofBits? (lo.extractLsb' 2 3) with
      | some r, some c => .ok (.amoxor d5 a5 h4 r c (AtSize.ofBit (lo.extractLsb' 1 1)) (isOne (lo.extractLsb' 0 1)))
      | _, _ => .error .code
  | 8 => match Order.ofBits? (lo.extractLsb' 5 3), Scope.ofBits? (lo.extractLsb' 2 3) with
      | some r, some c => .ok (.amomin d5 a5 h4 r c (AtSize.ofBit (lo.extractLsb' 1 1)) (isOne (lo.extractLsb' 0 1)))
      | _, _ => .error .code
  | 9 => match Order.ofBits? (lo.extractLsb' 5 3), Scope.ofBits? (lo.extractLsb' 2 3) with
      | some r, some c => .ok (.amomax d5 a5 h4 r c (AtSize.ofBit (lo.extractLsb' 1 1)) (isOne (lo.extractLsb' 0 1)))
      | _, _ => .error .code
  | 0x0a => match Order.ofBits? (lo.extractLsb' 5 3), Scope.ofBits? (lo.extractLsb' 2 3) with
      | some r, some c => .ok (.amominu d5 a5 h4 r c (AtSize.ofBit (lo.extractLsb' 1 1)) (isOne (lo.extractLsb' 0 1)))
      | _, _ => .error .code
  | 0x0b => match Order.ofBits? (lo.extractLsb' 5 3), Scope.ofBits? (lo.extractLsb' 2 3) with
      | some r, some c => .ok (.amomaxu d5 a5 h4 r c (AtSize.ofBit (lo.extractLsb' 1 1)) (isOne (lo.extractLsb' 0 1)))
      | _, _ => .error .code
  | 0x0c => match Order.ofBits? (lo.extractLsb' 5 3), Scope.ofBits? (lo.extractLsb' 2 3) with
      | some r, some c => mbz ((lo.extractLsb' 1 1) == 0) (.amofadd d5 a5 h4 r c (isOne (lo.extractLsb' 0 1)))
      | _, _ => .error .code
  | _ => .error .code

/-- Major 0x33: local and mesh loads (R232). -/
def decLoad (d5 a5 : BitVec 5) (h4 : BitVec 4) (lo : BitVec 12) : Except DecodeError Instr :=
  match (h4.extractLsb' 0 1).toNat with
  | 0 => .ok (.ll d5 a5 (MemSize.ofBits (h4.extractLsb' 2 2)) (isOne (h4.extractLsb' 1 1)) lo)
  | _ => .ok (.lm d5 a5 (MemSize.ofBits (h4.extractLsb' 2 2)) (isOne (h4.extractLsb' 1 1)) lo)

/-- Major 0x34: local and mesh stores (R232). -/
def decStore (d5 a5 : BitVec 5) (h4 : BitVec 4) (lo : BitVec 12) : Except DecodeError Instr :=
  match (h4.extractLsb' 0 1).toNat with
  | 0 => mbz ((h4.extractLsb' 1 1) == 0) (.sl d5 a5 (MemSize.ofBits (h4.extractLsb' 2 2)) lo)
  | _ => mbz ((h4.extractLsb' 1 1) == 0) (.sm d5 a5 (MemSize.ofBits (h4.extractLsb' 2 2)) lo)

/-- Major 0x35: XLAT, HDROP, PREF (R227). -/
def decXlat (d5 a5 : BitVec 5) (h4 : BitVec 4) (lo : BitVec 12) : Except DecodeError Instr :=
  match (lo.extractLsb' 8 4).toNat with
  | 0 => mbz ((lo.extractLsb' 0 7) == 0) (.xlat d5 a5 h4 (isOne (lo.extractLsb' 7 1)))
  | 1 => mbz (d5 == 0 && a5 == 0 && (lo.extractLsb' 0 8) == 0) (.hdrop h4)
  | 2 => mbz (d5 == 0) (.pref a5 h4 (lo.extractLsb' 0 8))
  | _ => .error .code

/-- Major 0x36: fences and system instructions (R241). -/
def decSystem (d5 a5 b5 : BitVec 5) (lo : BitVec 11) : Except DecodeError Instr :=
  match b5.toNat with
  | 0 => match Scope.ofBits? (lo.extractLsb' 0 3) with
      | some s => mbz (d5 == 0 && a5 == 0 && (lo.extractLsb' 5 6) == 0) (.fence (FenceKind.ofBits (lo.extractLsb' 3 2)) s)
      | _ => .error .code
  | 1 => mbz (d5 == 0 && a5 == 0 && lo == 0) (.ifence)
  | 2 => mbz (a5 == 0 && (lo.extractLsb' 4 7) == 0) (.rdid d5 (lo.extractLsb' 0 4))
  | 3 => mbz (a5 == 0 && lo == 0) (.time d5)
  | 4 => mbz (d5 == 0 && a5 == 0) (.trap lo)
  | 5 => mbz (d5 == 0 && a5 == 0 && lo == 0) (.eret)
  | 6 => mbz (a5 == 0 && (lo.extractLsb' 4 7) == 0) (.mfsr d5 (lo.extractLsb' 0 4))
  | 7 => mbz (d5 == 0 && (lo.extractLsb' 4 7) == 0) (.mtsr a5 (lo.extractLsb' 0 4))
  | 8 => mbz (a5 == 0 && (lo.extractLsb' 7 4) == 0) (.xget d5 (XKind.ofBits (lo.extractLsb' 5 2)) (lo.extractLsb' 0 5))
  | 9 => mbz (d5 == 0 && (lo.extractLsb' 7 4) == 0) (.xput a5 (XKind.ofBits (lo.extractLsb' 5 2)) (lo.extractLsb' 0 5))
  | _ => .error .code

/-- Major 0x37: threads, queues and messages (R252). -/
def decThread (d5 a5 b5 : BitVec 5) (lo : BitVec 11) : Except DecodeError Instr :=
  match (lo.extractLsb' 6 5).toNat with
  | 0 => mbz (b5 == 0 && (lo.extractLsb' 0 6) == 0) (.start d5 a5)
  | 1 => mbz ((lo.extractLsb' 0 6) == 0) (.spawn d5 a5 b5)
  | 2 => mbz (d5 == 0 && a5 == 0 && b5 == 0 && (lo.extractLsb' 0 6) == 0) (.exit)
  | 3 => mbz (d5 == 0 && a5 == 0 && b5 == 0) (.yield (lo.extractLsb' 0 6))
  | 4 => mbz (a5 == 0 && b5 == 0 && (lo.extractLsb' 2 4) == 0) (.waitq d5 (lo.extractLsb' 0 2))
  | 5 => mbz ((lo.extractLsb' 2 4) == 0) (.postq d5 a5 b5 (lo.extractLsb' 0 2))
  | 6 => mbz (b5 == 0 && (lo.extractLsb' 0 6) == 0) (.taskdec d5 a5)
  | 7 => mbz (d5 == 0) (.msend a5 b5 (lo.extractLsb' 0 6))
  | 8 => mbz (a5 == 0 && b5 == 0) (.mrecv d5 (lo.extractLsb' 0 6))
  | 9 => mbz ((lo.extractLsb' 0 6) == 0) (.pmerge d5 a5 b5)
  | _ => .error .code

/-- Major 0x38: copy unit commands (R273). -/
def decCopy (d5 a5 b5 : BitVec 5) (lo : BitVec 11) : Except DecodeError Instr :=
  match (lo.extractLsb' 0 6).toNat with
  | 0 | 1 | 2 | 3 | 4 | 5 | 6 | 7 => mbz (d5 == 0 && b5 == 0 && (lo.extractLsb' 9 2) == 0) (.cpySetr a5 (lo.extractLsb' 6 3) (lo.extractLsb' 0 3))
  | 8 | 9 | 0x0a | 0x0b | 0x0c | 0x0d | 0x0e | 0x0f => mbz (a5 == 0 && b5 == 0 && (lo.extractLsb' 9 2) == 0) (.cpyGetr d5 (lo.extractLsb' 6 3) (lo.extractLsb' 0 3))
  | 0x10 => mbz ((lo.extractLsb' 6 5) == 0) (.cpyDesc d5 a5 b5)
  | 0x11 => mbz (b5 == 0 && (lo.extractLsb' 6 5) == 0) (.cpyDfree d5 a5)
  | 0x12 => mbz (a5 == 0 && b5 == 0 && (lo.extractLsb' 9 2) == 0) (.cpyLin d5 (lo.extractLsb' 6 3))
  | 0x13 => mbz (a5 == 0 && b5 == 0 && (lo.extractLsb' 9 2) == 0) (.cpyTen d5 (lo.extractLsb' 6 3))
  | 0x14 => .ok (.cpyTile d5 a5 b5 (isOne (lo.extractLsb' 10 1)) (isOne (lo.extractLsb' 9 1)) (lo.extractLsb' 6 3))
  | 0x15 => mbz (b5 == 0 && (lo.extractLsb' 9 1) == 0) (.cpyWblk d5 a5 (isOne (lo.extractLsb' 10 1)) (lo.extractLsb' 6 3))
  | 0x16 => mbz (a5 == 0 && b5 == 0 && (lo.extractLsb' 9 2) == 0) (.cpyRblk d5 (lo.extractLsb' 6 3))
  | 0x17 => mbz (a5 == 0 && b5 == 0 && (lo.extractLsb' 9 2) == 0) (.cpyKvg d5 (lo.extractLsb' 6 3))
  | 0x18 => mbz (b5 == 0 && (lo.extractLsb' 9 2) == 0) (.cpyPgin d5 a5 (lo.extractLsb' 6 3))
  | 0x19 => mbz (b5 == 0 && (lo.extractLsb' 9 2) == 0) (.cpyPgout d5 a5 (lo.extractLsb' 6 3))
  | 0x1a => mbz (a5 == 0 && b5 == 0 && (lo.extractLsb' 9 2) == 0) (.cpyAbort d5 (lo.extractLsb' 6 3))
  | _ => .error .code

/-- Major 0x39: press commands (R318). -/
def decPress (d5 a5 b5 : BitVec 5) (lo : BitVec 11) : Except DecodeError Instr :=
  match (lo.extractLsb' 0 6).toNat with
  | 0 => mbz (b5 == 0 && (lo.extractLsb' 7 4) == 0) (.muGetr d5 a5 (lo.extractLsb' 6 1))
  | 1 => mbz (d5 == 0 && (lo.extractLsb' 7 4) == 0) (.muSetr a5 b5 (lo.extractLsb' 6 1))
  | 2 => mbz (b5 == 0 && (lo.extractLsb' 7 4) == 0) (.muGets d5 a5 (lo.extractLsb' 6 1))
  | 3 => mbz (d5 == 0 && (lo.extractLsb' 7 4) == 0) (.muSets a5 b5 (lo.extractLsb' 6 1))
  | 4 => mbz (d5 == 0 && (lo.extractLsb' 7 4) == 0) (.muImld a5 b5 (lo.extractLsb' 6 1))
  | 5 => mbz (d5 == 0 && b5 == 0 && (lo.extractLsb' 7 4) == 0) (.muStart a5 (lo.extractLsb' 6 1))
  | 6 => mbz (a5 == 0 && b5 == 0 && (lo.extractLsb' 7 4) == 0) (.muStop d5 (lo.extractLsb' 6 1))
  | 7 => mbz (d5 == 0 && a5 == 0 && b5 == 0 && (lo.extractLsb' 7 4) == 0) (.muReset (lo.extractLsb' 6 1))
  | 8 => mbz (d5 == 0 && (lo.extractLsb' 7 4) == 0) (.muSave a5 b5 (lo.extractLsb' 6 1))
  | 9 => mbz (d5 == 0 && (lo.extractLsb' 7 4) == 0) (.muLoad a5 b5 (lo.extractLsb' 6 1))
  | 0x0a => mbz (d5 == 0 && a5 == 0 && b5 == 0 && (lo.extractLsb' 7 4) == 0) (.muResume (lo.extractLsb' 6 1))
  | _ => .error .code

/-- Major 0x3A: lookup commands and instructions (R381, R382, R386). -/
def decLookup (d5 a5 b5 : BitVec 5) (lo : BitVec 11) : Except DecodeError Instr :=
  match (lo.extractLsb' 0 6).toNat with
  | 0 => mbz ((lo.extractLsb' 6 5) == 0) (.lkPost d5 a5 b5)
  | 1 => mbz (d5 == 0 && (lo.extractLsb' 6 5) == 0) (.lkImld a5 b5)
  | 2 => mbz (d5 == 0 && (lo.extractLsb' 6 5) == 0) (.lkRun a5 b5)
  | 3 => mbz (b5 == 0 && (lo.extractLsb' 6 5) == 0) (.lkHalt d5 a5)
  | 4 => mbz (b5 == 0 && (lo.extractLsb' 9 2) == 0) (.lkStat d5 a5 (lo.extractLsb' 6 3))
  | 0x10 => mbz ((lo.extractLsb' 6 5) == 0) (.lkTdesc d5 a5 b5)
  | 0x11 => mbz (b5 == 0 && (lo.extractLsb' 6 5) == 0) (.lkTfree d5 a5)
  | 0x12 => mbz (d5 == 0 && b5 == 0 && (lo.extractLsb' 6 5) == 0) (.lkBopen a5)
  | 0x13 => mbz (b5 == 0 && (lo.extractLsb' 6 5) == 0) (.lkFetch d5 a5)
  | 0x14 =>
    match (lo.extractLsb' 6 5).toNat with
    | 0 => mbz (b5 == 0) (.lkBclose d5 a5)
    | 1 => mbz (a5 == 0 && b5 == 0) (.lkBdrop d5)
    | _ => .error .code
  | 0x15 => mbz (b5 == 0 && (lo.extractLsb' 6 5) == 0) (.lkSeal d5 a5)
  | 0x16 => mbz (d5 == 0 && a5 == 0 && b5 == 0 && (lo.extractLsb' 6 5) == 0) (.lkWclr)
  | 0x17 => mbz ((lo.extractLsb' 9 2) == 0) (.lkFib d5 a5 b5 (lo.extractLsb' 6 3))
  | 0x18 => mbz (b5 == 0 && (lo.extractLsb' 10 1) == 0) (.lkSpout d5 a5 (lo.extractLsb' 6 4))
  | 0x19 => mbz (a5 == 0 && b5 == 0 && (lo.extractLsb' 9 2) == 0) (.lkGetc d5 (lo.extractLsb' 6 3))
  | _ => .error .code

/-- Major 0x3B: Splice commands (R433). -/
def decSplice (d5 a5 b5 : BitVec 5) (lo : BitVec 11) : Except DecodeError Instr :=
  match (lo.extractLsb' 0 6).toNat with
  | 0 => mbz (b5 == 0 && (lo.extractLsb' 6 5) == 0) (.kvcfg d5 a5)
  | 1 => mbz (b5 == 0 && (lo.extractLsb' 7 4) == 0) (.kvmatch d5 a5 (isOne (lo.extractLsb' 6 1)))
  | 2 => mbz (b5 == 0 && (lo.extractLsb' 6 5) == 0) (.kvinsert d5 a5)
  | 3 => mbz (b5 == 0 && (lo.extractLsb' 6 5) == 0) (.kvappend d5 a5)
  | 4 => mbz (b5 == 0 && (lo.extractLsb' 6 5) == 0) (.kvref d5 a5)
  | 5 => mbz (b5 == 0 && (lo.extractLsb' 7 4) == 0) (.kvunref d5 a5 (isOne (lo.extractLsb' 6 1)))
  | 6 => mbz (b5 == 0 && (lo.extractLsb' 6 5) == 0) (.kvpin d5 a5)
  | 7 => mbz (b5 == 0 && (lo.extractLsb' 6 5) == 0) (.kvunpin d5 a5)
  | 8 => mbz (b5 == 0 && (lo.extractLsb' 6 5) == 0) (.kvbt d5 a5)
  | 9 => mbz (b5 == 0 && (lo.extractLsb' 6 5) == 0) (.kvtier d5 a5)
  | 0x0a => mbz (b5 == 0 && (lo.extractLsb' 6 5) == 0) (.kvstat d5 a5)
  | _ => .error .code

/-- Major 0x3C: fabric commands (R409). -/
def decFabric (d5 a5 b5 : BitVec 5) (lo : BitVec 11) : Except DecodeError Instr :=
  match (lo.extractLsb' 0 6).toNat with
  | 0 | 1 | 2 | 3 | 4 | 5 | 6 | 7 => mbz (d5 == 0 && b5 == 0 && (lo.extractLsb' 8 3) == 0) (.fabSetr a5 (lo.extractLsb' 6 2) (lo.extractLsb' 0 3))
  | 8 | 9 | 0x0a | 0x0b | 0x0c | 0x0d | 0x0e | 0x0f => mbz (a5 == 0 && b5 == 0 && (lo.extractLsb' 8 3) == 0) (.fabGetr d5 (lo.extractLsb' 6 2) (lo.extractLsb' 0 3))
  | 0x10 => mbz (a5 == 0 && b5 == 0 && (lo.extractLsb' 8 3) == 0) (.fabPut d5 (lo.extractLsb' 6 2))
  | 0x11 => mbz (a5 == 0 && b5 == 0 && (lo.extractLsb' 8 3) == 0) (.fabGet d5 (lo.extractLsb' 6 2))
  | 0x12 => mbz (a5 == 0 && b5 == 0 && (lo.extractLsb' 8 3) == 0) (.fabPuts d5 (lo.extractLsb' 6 2))
  | 0x13 => mbz (a5 == 0 && b5 == 0 && (lo.extractLsb' 9 2) == 0) (.fabTput d5 (isOne (lo.extractLsb' 8 1)) (lo.extractLsb' 6 2))
  | 0x14 => mbz (b5 == 0 && (lo.extractLsb' 8 3) == 0) (.fabSeal d5 a5 (lo.extractLsb' 6 2))
  | 0x15 => mbz (b5 == 0 && (lo.extractLsb' 8 3) == 0) (.fabAred d5 a5 (lo.extractLsb' 6 2))
  | 0x16 => mbz ((lo.extractLsb' 6 5) == 0) (.fabGrp d5 a5 b5)
  | 0x17 => mbz ((lo.extractLsb' 6 5) == 0) (.fabWin d5 a5 b5)
  | 0x18 => mbz (b5 == 0 && (lo.extractLsb' 6 5) == 0) (.fabWfree d5 a5)
  | 0x19 => mbz (b5 == 0 && (lo.extractLsb' 6 5) == 0) (.fabLstat d5 a5)
  | 0x20 => mbz (b5 == 0 && (lo.extractLsb' 9 2) == 0) (.fabLda d5 a5 (AtSize.ofBit (lo.extractLsb' 8 1)) (lo.extractLsb' 6 2))
  | 0x21 => mbz (b5 == 0 && (lo.extractLsb' 9 2) == 0) (.fabSta d5 a5 (AtSize.ofBit (lo.extractLsb' 8 1)) (lo.extractLsb' 6 2))
  | 0x22 => mbz (b5 == 0 && (lo.extractLsb' 9 2) == 0) (.fabAmoswap d5 a5 (AtSize.ofBit (lo.extractLsb' 8 1)) (lo.extractLsb' 6 2))
  | 0x23 => mbz ((lo.extractLsb' 9 2) == 0) (.fabAmocas d5 a5 b5 (AtSize.ofBit (lo.extractLsb' 8 1)) (lo.extractLsb' 6 2))
  | 0x24 => mbz (b5 == 0 && (lo.extractLsb' 9 2) == 0) (.fabAmoadd d5 a5 (AtSize.ofBit (lo.extractLsb' 8 1)) (lo.extractLsb' 6 2))
  | 0x25 => mbz (b5 == 0 && (lo.extractLsb' 9 2) == 0) (.fabAmoand d5 a5 (AtSize.ofBit (lo.extractLsb' 8 1)) (lo.extractLsb' 6 2))
  | 0x26 => mbz (b5 == 0 && (lo.extractLsb' 9 2) == 0) (.fabAmoor d5 a5 (AtSize.ofBit (lo.extractLsb' 8 1)) (lo.extractLsb' 6 2))
  | 0x27 => mbz (b5 == 0 && (lo.extractLsb' 9 2) == 0) (.fabAmoxor d5 a5 (AtSize.ofBit (lo.extractLsb' 8 1)) (lo.extractLsb' 6 2))
  | 0x28 => mbz (b5 == 0 && (lo.extractLsb' 9 2) == 0) (.fabAmomin d5 a5 (AtSize.ofBit (lo.extractLsb' 8 1)) (lo.extractLsb' 6 2))
  | 0x29 => mbz (b5 == 0 && (lo.extractLsb' 9 2) == 0) (.fabAmomax d5 a5 (AtSize.ofBit (lo.extractLsb' 8 1)) (lo.extractLsb' 6 2))
  | 0x2a => mbz (b5 == 0 && (lo.extractLsb' 9 2) == 0) (.fabAmominu d5 a5 (AtSize.ofBit (lo.extractLsb' 8 1)) (lo.extractLsb' 6 2))
  | 0x2b => mbz (b5 == 0 && (lo.extractLsb' 9 2) == 0) (.fabAmomaxu d5 a5 (AtSize.ofBit (lo.extractLsb' 8 1)) (lo.extractLsb' 6 2))
  | 0x2c => mbz (b5 == 0 && (lo.extractLsb' 8 3) == 0) (.fabAmofadd d5 a5 (lo.extractLsb' 6 2))
  | _ => .error .code

/-- Major 0x3D: distributor commands (R478). -/
def decDist (d5 a5 b5 : BitVec 5) (lo : BitVec 11) : Except DecodeError Instr :=
  match (lo.extractLsb' 0 6).toNat with
  | 0 => mbz ((lo.extractLsb' 6 5) == 0) (.dqQcfg d5 a5 b5)
  | 1 => mbz ((lo.extractLsb' 6 5) == 0) (.dqPush d5 a5 b5)
  | 2 => mbz (b5 == 0 && (lo.extractLsb' 9 2) == 0) (.dqQget d5 a5 (lo.extractLsb' 6 3))
  | 3 => mbz (d5 == 0 && (lo.extractLsb' 6 5) == 0) (.dqPrio a5 b5)
  | 4 => mbz (d5 == 0 && (lo.extractLsb' 6 5) == 0) (.dqQen a5 b5)
  | _ => .error .code

/-- Major 0x3E: tile instructions (R243). -/
def decTile (d5 a5 b5 : BitVec 5) (lo : BitVec 11) : Except DecodeError Instr :=
  match (lo.extractLsb' 0 6).toNat with
  | 0 => mbz ((lo.extractLsb' 6 5) == 0) (.topen d5 a5 b5)
  | 1 => mbz (d5 == 0 && (lo.extractLsb' 6 5) == 0) (.twrH a5 b5)
  | 2 => mbz (d5 == 0 && (lo.extractLsb' 6 5) == 0) (.twrW a5 b5)
  | 3 => mbz (d5 == 0 && (lo.extractLsb' 6 5) == 0) (.twrD a5 b5)
  | 4 => mbz (d5 == 0 && (lo.extractLsb' 6 5) == 0) (.tpos a5 b5)
  | 5 => mbz (d5 == 0 && (lo.extractLsb' 6 5) == 0) (.trmap a5 b5)
  | 6 =>
    match (lo.extractLsb' 6 5).toNat with
    | 0 => mbz (d5 == 0) (.tmaskOr a5 b5)
    | 1 => mbz (d5 == 0) (.tmaskClr a5 b5)
    | 2 => mbz (d5 == 0) (.tmaskSet a5 b5)
    | _ => .error .code
  | 7 => mbz (b5 == 0) (.tstat d5 a5 (lo.extractLsb' 6 5))
  | 8 => mbz (d5 == 0 && b5 == 0 && (lo.extractLsb' 6 5) == 0) (.tdrop a5)
  | 9 => mbz (b5 == 0 && (lo.extractLsb' 6 5) == 0) (.seal d5 a5)
  | 0x0a => mbz (a5 == 0 && b5 == 0 && (lo.extractLsb' 8 3) == 0) (.tcnt d5 (isOne (lo.extractLsb' 7 1)) (lo.extractLsb' 6 1))
  | _ => .error .code

/-- The instruction whose fields the word holds, before the limits of `Instr.wf` (R186). -/
def decodeFields (w : W32) : Except DecodeError Instr :=
  match (opF w).toNat with
  | 0x01 => decInteger (gdF w) (gaF w) (gbF w) (fnF w)
  | 0x02 => decBits (gdF w) (gaF w) (gbF w) (fnF w)
  | 0x03 => decCompare (gdF w) (gaF w) (gbF w) (fnF w)
  | 0x04 => decFloat (gdF w) (gaF w) (gbF w) (fnF w)
  | 0x08 => .ok (.addi (gdF w) (gaF w) (imm16F w))
  | 0x09 => .ok (.andi (gdF w) (gaF w) (imm16F w))
  | 0x0a => .ok (.ori (gdF w) (gaF w) (imm16F w))
  | 0x0b => .ok (.xori (gdF w) (gaF w) (imm16F w))
  | 0x0c => mbz (((imm16F w).extractLsb' 6 10) == 0) (.slli (gdF w) (gaF w) ((imm16F w).extractLsb' 0 6))
  | 0x0d => mbz (((imm16F w).extractLsb' 6 10) == 0) (.srli (gdF w) (gaF w) ((imm16F w).extractLsb' 0 6))
  | 0x0e => mbz (((imm16F w).extractLsb' 6 10) == 0) (.srai (gdF w) (gaF w) ((imm16F w).extractLsb' 0 6))
  | 0x0f => mbz (((imm16F w).extractLsb' 6 10) == 0) (.rori (gdF w) (gaF w) ((imm16F w).extractLsb' 0 6))
  | 0x10 => mbz (((gdF w).extractLsb' 3 2) == 0) (.ceqi ((gdF w).extractLsb' 0 3) (gaF w) (imm16F w))
  | 0x11 => mbz (((gdF w).extractLsb' 3 2) == 0) (.cnei ((gdF w).extractLsb' 0 3) (gaF w) (imm16F w))
  | 0x12 => mbz (((gdF w).extractLsb' 3 2) == 0) (.clti ((gdF w).extractLsb' 0 3) (gaF w) (imm16F w))
  | 0x13 => mbz (((gdF w).extractLsb' 3 2) == 0) (.cgei ((gdF w).extractLsb' 0 3) (gaF w) (imm16F w))
  | 0x14 => mbz (((gdF w).extractLsb' 3 2) == 0) (.cltui ((gdF w).extractLsb' 0 3) (gaF w) (imm16F w))
  | 0x15 => mbz (((gdF w).extractLsb' 3 2) == 0) (.cgeui ((gdF w).extractLsb' 0 3) (gaF w) (imm16F w))
  | 0x16 => mbz (((gaF w).extractLsb' 2 3) == 0) (.movz (gdF w) ((gaF w).extractLsb' 0 2) (imm16F w))
  | 0x17 => mbz (((gaF w).extractLsb' 2 3) == 0) (.movk (gdF w) ((gaF w).extractLsb' 0 2) (imm16F w))
  | 0x18 => mbz (((gaF w).extractLsb' 2 3) == 0) (.movn (gdF w) ((gaF w).extractLsb' 0 2) (imm16F w))
  | 0x1b => decField (gdF w) (gaF w) (imm16F w)
  | 0x1c => mbz ((gaF w) == 0 && ((imm16F w).extractLsb' 8 8) == 0) (.pkk (gdF w) ((imm16F w).extractLsb' 0 8))
  | 0x1d => mbz ((gdF w) == 0 && ((imm16F w).extractLsb' 8 8) == 0) (.upk (gaF w) ((imm16F w).extractLsb' 0 8))
  | 0x20 => .ok (.beq (gdF w) (gaF w) (imm16F w))
  | 0x21 => .ok (.bne (gdF w) (gaF w) (imm16F w))
  | 0x22 => .ok (.blt (gdF w) (gaF w) (imm16F w))
  | 0x23 => .ok (.bge (gdF w) (gaF w) (imm16F w))
  | 0x24 => .ok (.bltu (gdF w) (gaF w) (imm16F w))
  | 0x25 => .ok (.bgeu (gdF w) (gaF w) (imm16F w))
  | 0x26 => mbz (((gdF w).extractLsb' 3 2) == 0 && (gaF w) == 0) (.bkt ((gdF w).extractLsb' 0 3) (imm16F w))
  | 0x27 => mbz (((gdF w).extractLsb' 3 2) == 0 && (gaF w) == 0) (.bkf ((gdF w).extractLsb' 0 3) (imm16F w))
  | 0x28 => .ok (.j (off26F w))
  | 0x29 => mbz ((gdF w).extractLsb' 2 3 == 0) (.call ((gdF w).extractLsb' 0 2 ++ gaF w) (imm16F w))
  | 0x2a => decJump (gdF w) (gaF w) (gbF w) (fnF w)
  | 0x2c => mbz ((gaF w) == 0 && ((imm16F w).extractLsb' 9 7) == 0 && ((imm16F w).extractLsb' 0 3) == 0) (.spl (gdF w) ((imm16F w).extractLsb' 3 6))
  | 0x2d => mbz ((gaF w) == 0 && ((imm16F w).extractLsb' 9 7) == 0 && ((imm16F w).extractLsb' 0 3) == 0) (.fil (gdF w) ((imm16F w).extractLsb' 3 6))
  | 0x30 => .ok (.ld (gdF w) (gaF w) (hF w) (imm12F w))
  | 0x31 => .ok (.st (gdF w) (gaF w) (hF w) (imm12F w))
  | 0x32 => decAtomic (gdF w) (gaF w) (hF w) (imm12F w)
  | 0x33 => decLoad (gdF w) (gaF w) (hF w) (imm12F w)
  | 0x34 => decStore (gdF w) (gaF w) (hF w) (imm12F w)
  | 0x35 => decXlat (gdF w) (gaF w) (hF w) (imm12F w)
  | 0x36 => decSystem (gdF w) (gaF w) (gbF w) (fnF w)
  | 0x37 => decThread (gdF w) (gaF w) (gbF w) (fnF w)
  | 0x38 => decCopy (gdF w) (gaF w) (gbF w) (fnF w)
  | 0x39 => decPress (gdF w) (gaF w) (gbF w) (fnF w)
  | 0x3a => decLookup (gdF w) (gaF w) (gbF w) (fnF w)
  | 0x3b => decSplice (gdF w) (gaF w) (gbF w) (fnF w)
  | 0x3c => decFabric (gdF w) (gaF w) (gbF w) (fnF w)
  | 0x3d => decDist (gdF w) (gaF w) (gbF w) (fnF w)
  | 0x3e => decTile (gdF w) (gaF w) (gbF w) (fnF w)
  | _ => .error .major

/-- The strand or lookup instruction that a word stands for; a word that the manual does not assign is refused (R188). -/
def decode (w : W32) : Except DecodeError Instr :=
  match decodeFields w with
  | .ok i => if i.wf then .ok i else .error .limit
  | .error e => .error e

/-! ### Press words (R328 to R332) -/

/-- Number of lane groups a V instruction uses (R300). -/
def Wid.groups : Wid → Nat
  | .w256 => 1 | .w512 => 2 | .w1024 => 4
def Wid.bits : Wid → BitVec 2
  | .w256 => 0 | .w512 => 1 | .w1024 => 2
def Wid.ofBits? (b : BitVec 2) : Option Wid :=
  match b.toNat with
  | 0 => some .w256 | 1 => some .w512 | 2 => some .w1024 | _ => none
def VTy.bits : VTy → BitVec 2
  | .f32 => 0 | .bf16 => 1
def VTy.ofBits? (b : BitVec 2) : Option VTy :=
  match b.toNat with
  | 0 => some .f32 | 1 => some .bf16 | _ => none

/-- N of an M word (R337). -/
def MOp.rows (x : MOp) : Nat := x.n1.toNat + 1
/-- CNT of MMA and MMAK: N x (2 - AW) (R337). -/
def MOp.beats (x : MOp) : Nat := x.rows * (if x.aw then 1 else 2)

/-- F of a V instruction (R348): 1, or 2 for reductions, approximations, transcendentals, conversions and VROPE. -/
def vFactor : Instr → Nat
  | .vredSum _ | .vredMax _ | .vrcp _ | .vrsq _ | .vexp2 _ | .vlog2 _ | .vtanh _ | .vgelu _
  | .vcvtBf _ _ | .vcvtFb _ _ | .vcvtFi _ _ | .vcvtIf _ _ | .vrope _ => 2
  | _ => 1

/-- The V fields of an instruction, if it is a V instruction. -/
def vFields : Instr → Option VOp
  | .vadd x | .vsub x | .vmul x | .vfma x | .vmin x | .vmax x | .vabs x | .vneg x | .vscl x | .vadds x
  | .vmov x | .vbcast x | .vredSum x | .vredMax x | .vrcp x | .vrsq x | .vexp2 x | .vlog2 x | .vtanh x
  | .vgelu x | .vrope x => some x
  | .vcvtBf x _ | .vcvtFb x _ | .vcvtFi x _ | .vcvtIf x _ => some x
  | _ => none

/-- Bytes of one plane row of a BLOAD, by BW (R353). -/
def bloadRowBytes (bw : BitVec 2) : Nat :=
  match bw.toNat with
  | 0 => 512 | 1 => 256 | _ => 128

/-- The beat count that the instruction requires (R331, R337, R339, R346, R353); Q, S and B take one beat. -/
def beatsOf (i : Instr) : Nat :=
  match vFields i with
  | some x => vFactor i * 4 / x.wid.groups
  | none =>
    match i with
    | .mma x | .mmak x => x.beats
    | .azero .. => 1
    | .aread _ _ _ _ haar => if haar then 7 else 2
    | .areadC .. => 2
    | .awrite .. => 2
    | .abias _ _ _ _ n1 => 2 * (n1.toNat + 1)
    | .astore _ _ _ _ n1 haar => 2 * (n1.toNat + 1) + (if haar then 5 else 0)
    | .astoreW .. => 72
    | .bload _ _ _ _ n1 bw => ((n1.toNat + 1) * bloadRowBytes bw + 511) / 512
    | _ => 1

/-- The slot of a press instruction (R294). -/
def pressSlotOf (i : Instr) : Option PressSlot :=
  match vFields i with
  | some x => some (if x.v1 then .v1 else .v0)
  | none =>
    match i with
    | .mma _ | .mmak _ => some .m
    | .azero .. | .aread .. | .areadC .. | .awrite .. | .abias .. | .astore .. | .astoreW .. => some .a
    | .bload .. | .bswapp .. | .bscl .. => some .c
    | .qpop .. | .qrel .. | .qpush .. | .qpushE .. => some .q
    | .sadd .. | .ssub .. | .sand .. | .sor .. | .sxor .. | .sshl .. | .sshr .. | .ssra .. | .smul ..
    | .smin .. | .smax .. | .sminu .. | .smaxu .. | .saddi .. | .smovi .. | .smovh .. | .scmp .. | .scmpi ..
    | .sfadd .. | .sfsub .. | .sfmul .. | .sfmin .. | .sfmax .. | .sfrcp .. | .sfrsq .. | .sitof .. | .sftoi ..
    | .sget .. | .sset .. | .svget .. | .pand .. | .por .. | .pxor .. | .pandn .. => some .s
    | .br .. | .loop .. | .stop .. => some .b
    | _ => none

/-- What a slot word decodes to: the instruction, provided CNT is the count it requires (R331) and its limits hold. -/
def cntOk (cnt : Nat) (i : Instr) : Option Instr := if cnt == beatsOf i && i.wf then some i else none

/-- M slot word (R337): low word, high word. -/
def decodeM (lo hi : W32) : Option Instr :=
  let x : MOp := ⟨lo.extractLsb' 28 4, lo.extractLsb' 13 3, lo.extractLsb' 10 3, lo.extractLsb' 4 6,
    hi.extractLsb' 27 5, hi.extractLsb' 22 5, hi.extractLsb' 14 8, hi.extractLsb' 6 8, isOne (hi.extractLsb' 5 1)⟩
  if lo.extractLsb' 0 4 == 0 && hi.extractLsb' 0 5 == 0 then
    match (lo.extractLsb' 24 4).toNat with
    | 1 => cntOk (lo.extractLsb' 16 8).toNat (.mma x)
    | 2 => cntOk (lo.extractLsb' 16 8).toNat (.mmak x)
    | _ => none
  else none

/-- A slot word (R339). -/
def decodeA (w : W32) : Option Instr :=
  let g := w.extractLsb' 28 4
  let bank := w.extractLsb' 14 3
  let cnt := (w.extractLsb' 17 7).toNat
  let row := w.extractLsb' 9 5
  let v8 := w.extractLsb' 6 3
  let y := w.extractLsb' 11 3
  let bit5 := isOne (w.extractLsb' 5 1)
  match (w.extractLsb' 24 4).toNat with
  | 1 => if w.extractLsb' 0 10 == 0 then cntOk cnt (.azero g bank (w.extractLsb' 10 4)) else none
  | 2 => if w.extractLsb' 0 5 == 0 then cntOk cnt (.aread g bank row v8 bit5) else none
  | 3 => if w.extractLsb' 0 6 == 0 then cntOk cnt (.areadC g bank row v8) else none
  | 4 => if w.extractLsb' 0 5 == 0 then cntOk cnt (.awrite g bank row v8 bit5) else none
  | 5 => if w.extractLsb' 0 1 == 0 then cntOk cnt (.abias g bank row v8 (w.extractLsb' 1 5)) else none
  | 6 => cntOk cnt (.astore g bank y (w.extractLsb' 6 5) (w.extractLsb' 1 5) (isOne (w.extractLsb' 0 1)))
  | 7 => if w.extractLsb' 0 6 == 0 then cntOk cnt (.astoreW g bank y (w.extractLsb' 6 5)) else none
  | _ => none

/-- The V instruction of an OP, with MODE (R348, R350, R351); the second operand is the MODE field [52:32]. -/
def vInstr (op : Nat) (x : VOp) (mode : BitVec 21) : Option Instr :=
  let plain (i : Instr) : Option Instr := if mode == 0 then some i else none
  match op with
  | 0x01 => plain (.vadd x)
  | 0x02 => plain (.vsub x)
  | 0x03 => plain (.vmul x)
  | 0x04 => plain (.vfma x)
  | 0x05 => plain (.vmin x)
  | 0x06 => plain (.vmax x)
  | 0x07 => plain (.vabs x)
  | 0x08 => plain (.vneg x)
  | 0x09 => plain (.vscl x)
  | 0x0A => plain (.vadds x)
  | 0x0B => plain (.vmov x)
  | 0x0C => plain (.vbcast x)
  | 0x0D => if mode == 0 then some (.vredSum x) else if mode == 1 then some (.vredMax x) else none
  | 0x0E => plain (.vrcp x)
  | 0x0F => plain (.vrsq x)
  | 0x10 => plain (.vexp2 x)
  | 0x11 => plain (.vlog2 x)
  | 0x12 => plain (.vtanh x)
  | 0x13 => plain (.vgelu x)
  | 0x14 =>
    let m : CvtMode := ⟨mode.extractLsb' 15 3, mode.extractLsb' 12 3, isOne (mode.extractLsb' 11 1)⟩
    if mode.extractLsb' 0 11 == 0 then
      match (mode.extractLsb' 18 3).toNat with
      | 0 => some (.vcvtBf x m)
      | 1 => some (.vcvtFb x m)
      | 2 => some (.vcvtFi x m)
      | 3 => some (.vcvtIf x m)
      | _ => none
    else none
  | 0x15 => plain (.vrope x)
  | _ => none

/-- V slot word (R346); `v1` for slot V1. -/
def decodeV (v1 : Bool) (lo hi : W32) : Option Instr :=
  match Wid.ofBits? (lo.extractLsb' 20 2), VTy.ofBits? (lo.extractLsb' 2 2) with
  | some wid, some ty =>
    if lo.extractLsb' 0 2 == 0 then
      match vInstr (lo.extractLsb' 22 6).toNat
          ⟨v1, lo.extractLsb' 28 4, wid, ty, lo.extractLsb' 10 6, lo.extractLsb' 4 6, hi.extractLsb' 26 6,
            hi.extractLsb' 21 5⟩ (hi.extractLsb' 0 21) with
      | some i => cntOk (lo.extractLsb' 16 4).toNat i
      | none => none
    else none
  | _, _ => none

/-- C slot word (R353). -/
def decodeC (w : W32) : Option Instr :=
  let g := w.extractLsb' 28 4
  let cnt := (w.extractLsb' 17 7).toNat
  match (w.extractLsb' 24 4).toNat with
  | 1 => cntOk cnt (.bload g (w.extractLsb' 14 3) (w.extractLsb' 13 1) (w.extractLsb' 8 5) (w.extractLsb' 2 6)
      (w.extractLsb' 0 2))
  | 2 => if w.extractLsb' 0 17 == 0 then cntOk cnt (.bswapp g) else none
  | 3 => if w.extractLsb' 0 10 == 0 then cntOk cnt (.bscl g (w.extractLsb' 16 1) (w.extractLsb' 10 6)) else none
  | _ => none

/-- Q slot word (R356). -/
def decodeQ (w : W32) : Option Instr :=
  let g := w.extractLsb' 28 4
  let y := w.extractLsb' 21 3
  match (w.extractLsb' 24 4).toNat with
  | 1 => if w.extractLsb' 0 19 == 0 then some (.qpop g y (w.extractLsb' 19 2)) else none
  | 2 => if w.extractLsb' 0 21 == 0 then some (.qrel g y) else none
  | 3 =>
    if isOne (w.extractLsb' 20 1) then
      if w.extractLsb' 0 14 == 0 then some (.qpushE g y (w.extractLsb' 16 4) (w.extractLsb' 14 2)) else none
    else
      if w.extractLsb' 0 17 == 0 then some (.qpush g y (w.extractLsb' 19 1) (w.extractLsb' 17 2)) else none
  | _ => none

/-- OP 1 of the S slot (R360). -/
def sInt (fn : Nat) (g : BitVec 4) (sd sa sb : BitVec 5) : Option Instr :=
  match fn with
  | 0 => some (.sadd g sd sa sb)
  | 1 => some (.ssub g sd sa sb)
  | 2 => some (.sand g sd sa sb)
  | 3 => some (.sor g sd sa sb)
  | 4 => some (.sxor g sd sa sb)
  | 5 => some (.sshl g sd sa sb)
  | 6 => some (.sshr g sd sa sb)
  | 7 => some (.ssra g sd sa sb)
  | 8 => some (.smul g sd sa sb)
  | 9 => some (.smin g sd sa sb)
  | 10 => some (.smax g sd sa sb)
  | 11 => some (.sminu g sd sa sb)
  | 12 => some (.smaxu g sd sa sb)
  | _ => none

/-- OP 7 of the S slot (R362). -/
def sFloat (fn : Nat) (g : BitVec 4) (sd sa sb : BitVec 5) : Option Instr :=
  match fn with
  | 0 => some (.sfadd g sd sa sb)
  | 1 => some (.sfsub g sd sa sb)
  | 2 => some (.sfmul g sd sa sb)
  | 3 => some (.sfmin g sd sa sb)
  | 4 => some (.sfmax g sd sa sb)
  | 5 => if sb == 0 then some (.sfrcp g sd sa) else none
  | 6 => if sb == 0 then some (.sfrsq g sd sa) else none
  | 7 => if sb == 0 then some (.sitof g sd sa) else none
  | 8 => if sb == 0 then some (.sftoi g sd sa) else none
  | _ => none

/-- The limits of a decoded instruction. -/
def limited (i : Instr) : Option Instr := if i.wf then some i else none

/-- S slot word (R359). -/
def decodeS (w : W32) : Option Instr :=
  let g := w.extractLsb' 28 4
  let sd := w.extractLsb' 19 5
  let sa := w.extractLsb' 14 5
  match (w.extractLsb' 24 4).toNat with
  | 1 => if w.extractLsb' 0 5 == 0 then sInt (w.extractLsb' 5 4).toNat g sd sa (w.extractLsb' 9 5) else none
  | 2 => some (.saddi g sd sa (w.extractLsb' 0 14))
  | 3 => some (.smovi g sd (w.extractLsb' 0 19))
  | 4 => if w.extractLsb' 16 3 == 0 then some (.smovh g sd (w.extractLsb' 0 16)) else none
  | 5 => if w.extractLsb' 0 3 == 0 then
      limited (.scmp g (w.extractLsb' 20 4) (w.extractLsb' 16 4) (w.extractLsb' 11 5) (w.extractLsb' 6 5)
        (w.extractLsb' 3 3)) else none
  | 6 => limited (.scmpi g (w.extractLsb' 20 4) (w.extractLsb' 16 4) (w.extractLsb' 11 5) (w.extractLsb' 8 3)
      (w.extractLsb' 0 8))
  | 7 => if w.extractLsb' 0 5 == 0 then sFloat (w.extractLsb' 5 4).toNat g sd sa (w.extractLsb' 9 5) else none
  | 8 => if w.extractLsb' 0 11 == 0 then limited (.sget g sd (w.extractLsb' 11 8)) else none
  | 9 => if w.extractLsb' 0 11 == 0 then limited (.sset g (w.extractLsb' 16 8) (w.extractLsb' 11 5)) else none
  | 10 => if w.extractLsb' 0 8 == 0 then some (.svget g sd (w.extractLsb' 13 6) (w.extractLsb' 8 5)) else none
  | 11 =>
    if w.extractLsb' 0 10 == 0 then
      let cd := w.extractLsb' 20 4
      let ca := w.extractLsb' 16 4
      let cb := w.extractLsb' 12 4
      match (w.extractLsb' 10 2).toNat with
      | 0 => some (.pand g cd ca cb)
      | 1 => some (.por g cd ca cb)
      | 2 => some (.pxor g cd ca cb)
      | _ => some (.pandn g cd ca cb)
    else none
  | _ => none

/-- B slot word (R364). -/
def decodeB (w : W32) : Option Instr :=
  let g := w.extractLsb' 28 4
  match (w.extractLsb' 24 4).toNat with
  | 1 => if w.extractLsb' 14 10 == 0 then some (.br g (w.extractLsb' 0 14)) else none
  | 2 => if w.extractLsb' 14 5 == 0 then some (.loop g (w.extractLsb' 19 5) (w.extractLsb' 0 14)) else none
  | 3 => if w.extractLsb' 0 24 == 0 then some (.stop g) else none
  | _ => none

/-- One slot of a bundle: the instruction of the first word or two, and the words that follow. -/
def decodeSlot : PressSlot → List W32 → Option (Instr × List W32)
  | .m, lo :: hi :: r => (decodeM lo hi).map (·, r)
  | .v0, lo :: hi :: r => (decodeV false lo hi).map (·, r)
  | .v1, lo :: hi :: r => (decodeV true lo hi).map (·, r)
  | .a, w :: r => (decodeA w).map (·, r)
  | .c, w :: r => (decodeC w).map (·, r)
  | .q, w :: r => (decodeQ w).map (·, r)
  | .s, w :: r => (decodeS w).map (·, r)
  | .b, w :: r => (decodeB w).map (·, r)
  | _, _ => none

/-- The slots of a bundle in mask order. -/
def decodeSlots : List PressSlot → List W32 → Option (List Instr × List W32)
  | [], ws => some ([], ws)
  | sl :: more, ws =>
    match decodeSlot sl ws with
    | none => none
    | some (i, r) =>
      match decodeSlots more r with
      | none => none
      | some (is, r') => some (i :: is, r')

/-- The eight slots, in mask order. -/
def pressSlots : List PressSlot := [.m, .a, .v0, .v1, .c, .q, .s, .b]

/-- The header bit of a slot (R328). -/
def PressSlot.maskBit : PressSlot → Nat
  | .m => 31 | .a => 30 | .v0 => 29 | .v1 => 28 | .c => 27 | .q => 26 | .s => 25 | .b => 24

/-- Words that a slot occupies (R329). -/
def PressSlot.words : PressSlot → Nat
  | .m | .v0 | .v1 => 2
  | _ => 1

/-- The code FCAUSE gives a slot (R322). -/
def PressSlot.code : PressSlot → Nat
  | .m => 0 | .a => 1 | .v0 => 2 | .v1 => 3 | .c => 4 | .q => 5 | .s => 6 | .b => 7

/-- The slots that a header names. -/
def headerSlots (h : W32) : List PressSlot := pressSlots.filter (fun sl => h.getLsbD sl.maskBit)

/-- Number of words of the bundle that a header opens (R329). -/
def bundleWords (h : W32) : Nat := 1 + ((headerSlots h).map PressSlot.words).sum

/-- A bundle from its words (header first): the stop bit, the instructions in mask order and the words after it.
`none` is an illegal bundle that the words of this bundle alone show (R332). -/
def decodeBundle (ws : List W32) : Option (Bool × List Instr × List W32) :=
  match ws with
  | [] => none
  | h :: rest =>
    if h.extractLsb' 0 23 == 0 && !(headerSlots h).isEmpty then
      match decodeSlots (headerSlots h) rest with
      | some (is, r) => some (h.getLsbD 23, is, r)
      | none => none
    else none

end

/-! ### Encoders -/

/-- The word of a strand or lookup instruction, from the encoding tables (R183, R191 to R201, R227 to R263, R273, R318,
R382, R386, R409, R433, R478); none for a press instruction or an event. -/
def encode? : Instr → Option W32
  | .add d a b => some (mkR 0x01#6 d a b 0#11)
  | .sub d a b => some (mkR 0x01#6 d a b 1#11)
  | .and d a b => some (mkR 0x01#6 d a b 2#11)
  | .or d a b => some (mkR 0x01#6 d a b 3#11)
  | .xor d a b => some (mkR 0x01#6 d a b 4#11)
  | .andn d a b => some (mkR 0x01#6 d a b 5#11)
  | .orn d a b => some (mkR 0x01#6 d a b 6#11)
  | .xnor d a b => some (mkR 0x01#6 d a b 7#11)
  | .sll d a b => some (mkR 0x01#6 d a b 8#11)
  | .srl d a b => some (mkR 0x01#6 d a b 9#11)
  | .sra d a b => some (mkR 0x01#6 d a b 0xa#11)
  | .rol d a b => some (mkR 0x01#6 d a b 0xb#11)
  | .ror d a b => some (mkR 0x01#6 d a b 0xc#11)
  | .min d a b => some (mkR 0x01#6 d a b 0xd#11)
  | .max d a b => some (mkR 0x01#6 d a b 0xe#11)
  | .minu d a b => some (mkR 0x01#6 d a b 0xf#11)
  | .maxu d a b => some (mkR 0x01#6 d a b 0x10#11)
  | .addw d a b => some (mkR 0x01#6 d a b 0x11#11)
  | .subw d a b => some (mkR 0x01#6 d a b 0x12#11)
  | .sllw d a b => some (mkR 0x01#6 d a b 0x13#11)
  | .srlw d a b => some (mkR 0x01#6 d a b 0x14#11)
  | .sraw d a b => some (mkR 0x01#6 d a b 0x15#11)
  | .mul d a b => some (mkR 0x01#6 d a b 0x16#11)
  | .mulh d a b => some (mkR 0x01#6 d a b 0x17#11)
  | .mulhu d a b => some (mkR 0x01#6 d a b 0x18#11)
  | .mulw d a b => some (mkR 0x01#6 d a b 0x19#11)
  | .sel d a b k => some (mkR 0x01#6 d a b (0#2 ++ k ++ 0x1a#6))
  | .clz d a => some (mkR 0x02#6 d a 0#5 0#11)
  | .ctz d a => some (mkR 0x02#6 d a 0#5 1#11)
  | .popc d a => some (mkR 0x02#6 d a 0#5 2#11)
  | .brev d a => some (mkR 0x02#6 d a 0#5 3#11)
  | .bswap d a => some (mkR 0x02#6 d a 0#5 4#11)
  | .sextB d a => some (mkR 0x02#6 d a 0#5 5#11)
  | .sextH d a => some (mkR 0x02#6 d a 0#5 6#11)
  | .sextW d a => some (mkR 0x02#6 d a 0#5 7#11)
  | .zextW d a => some (mkR 0x02#6 d a 0#5 8#11)
  | .crcB d a b => some (mkR 0x02#6 d a b 9#11)
  | .crcH d a b => some (mkR 0x02#6 d a b 0xa#11)
  | .crcW d a b => some (mkR 0x02#6 d a b 0xb#11)
  | .crcD d a b => some (mkR 0x02#6 d a b 0xc#11)
  | .hmix d a b => some (mkR 0x02#6 d a b 0xd#11)
  | .ceq k a b => some (mkR 0x03#6 (0#2 ++ k) a b 0#11)
  | .cne k a b => some (mkR 0x03#6 (0#2 ++ k) a b 1#11)
  | .clt k a b => some (mkR 0x03#6 (0#2 ++ k) a b 2#11)
  | .cge k a b => some (mkR 0x03#6 (0#2 ++ k) a b 3#11)
  | .cltu k a b => some (mkR 0x03#6 (0#2 ++ k) a b 4#11)
  | .cgeu k a b => some (mkR 0x03#6 (0#2 ++ k) a b 5#11)
  | .ctst k a b => some (mkR 0x03#6 (0#2 ++ k) a b 6#11)
  | .kand k p q => some (mkR 0x03#6 (0#2 ++ k) (0#2 ++ p) (0#2 ++ q) 8#11)
  | .kor k p q => some (mkR 0x03#6 (0#2 ++ k) (0#2 ++ p) (0#2 ++ q) 9#11)
  | .kxor k p q => some (mkR 0x03#6 (0#2 ++ k) (0#2 ++ p) (0#2 ++ q) 0xa#11)
  | .kandn k p q => some (mkR 0x03#6 (0#2 ++ k) (0#2 ++ p) (0#2 ++ q) 0xb#11)
  | .knot k p => some (mkR 0x03#6 (0#2 ++ k) (0#2 ++ p) 0#5 0xc#11)
  | .kset k => some (mkR 0x03#6 (0#2 ++ k) 0#5 0#5 0xd#11)
  | .kclr k => some (mkR 0x03#6 (0#2 ++ k) 0#5 0#5 0xe#11)
  | .fadd d a b f => some (mkR 0x04#6 d a b (0#5 ++ (FpFmt.bit f) ++ 0#5))
  | .fsub d a b f => some (mkR 0x04#6 d a b (0#5 ++ (FpFmt.bit f) ++ 1#5))
  | .fmul d a b f => some (mkR 0x04#6 d a b (0#5 ++ (FpFmt.bit f) ++ 2#5))
  | .fma d a b f => some (mkR 0x04#6 d a b (0#5 ++ (FpFmt.bit f) ++ 3#5))
  | .fmin d a b f => some (mkR 0x04#6 d a b (0#5 ++ (FpFmt.bit f) ++ 4#5))
  | .fmax d a b f => some (mkR 0x04#6 d a b (0#5 ++ (FpFmt.bit f) ++ 5#5))
  | .fabs d a f => some (mkR 0x04#6 d a 0#5 (0#5 ++ (FpFmt.bit f) ++ 6#5))
  | .fneg d a f => some (mkR 0x04#6 d a 0#5 (0#5 ++ (FpFmt.bit f) ++ 7#5))
  | .fcpys d a b f => some (mkR 0x04#6 d a b (0#5 ++ (FpFmt.bit f) ++ 8#5))
  | .frcp d a f => some (mkR 0x04#6 d a 0#5 (0#5 ++ (FpFmt.bit f) ++ 9#5))
  | .frsq d a f => some (mkR 0x04#6 d a 0#5 (0#5 ++ (FpFmt.bit f) ++ 0xa#5))
  | .fclass d a f => some (mkR 0x04#6 d a 0#5 (0#5 ++ (FpFmt.bit f) ++ 0xb#5))
  | .fceq k a b f => some (mkR 0x04#6 (0#2 ++ k) a b (0#5 ++ (FpFmt.bit f) ++ 0xc#5))
  | .fclt k a b f => some (mkR 0x04#6 (0#2 ++ k) a b (0#5 ++ (FpFmt.bit f) ++ 0xd#5))
  | .fcle k a b f => some (mkR 0x04#6 (0#2 ++ k) a b (0#5 ++ (FpFmt.bit f) ++ 0xe#5))
  | .fcun k a b f => some (mkR 0x04#6 (0#2 ++ k) a b (0#5 ++ (FpFmt.bit f) ++ 0xf#5))
  | .fcvtSB d a => some (mkR 0x04#6 d a 0#5 0x30#11)
  | .fcvtBS d a => some (mkR 0x04#6 d a 0#5 0x11#11)
  | .ftow d a t f => some (mkR 0x04#6 d a 0#5 (0#4 ++ (BitVec.ofBool t) ++ (FpFmt.bit f) ++ 0x12#5))
  | .ftowu d a t f => some (mkR 0x04#6 d a 0#5 (0#4 ++ (BitVec.ofBool t) ++ (FpFmt.bit f) ++ 0x13#5))
  | .ftol d a t f => some (mkR 0x04#6 d a 0#5 (0#4 ++ (BitVec.ofBool t) ++ (FpFmt.bit f) ++ 0x14#5))
  | .ftolu d a t f => some (mkR 0x04#6 d a 0#5 (0#4 ++ (BitVec.ofBool t) ++ (FpFmt.bit f) ++ 0x15#5))
  | .wtof d a f => some (mkR 0x04#6 d a 0#5 (0#5 ++ (FpFmt.bit f) ++ 0x16#5))
  | .wutof d a f => some (mkR 0x04#6 d a 0#5 (0#5 ++ (FpFmt.bit f) ++ 0x17#5))
  | .ltof d a f => some (mkR 0x04#6 d a 0#5 (0#5 ++ (FpFmt.bit f) ++ 0x18#5))
  | .lutof d a f => some (mkR 0x04#6 d a 0#5 (0#5 ++ (FpFmt.bit f) ++ 0x19#5))
  | .addi d a i => some (mkI 0x08#6 d a i)
  | .andi d a i => some (mkI 0x09#6 d a i)
  | .ori d a i => some (mkI 0x0a#6 d a i)
  | .xori d a i => some (mkI 0x0b#6 d a i)
  | .slli d a s => some (mkI 0x0c#6 d a (0#10 ++ s))
  | .srli d a s => some (mkI 0x0d#6 d a (0#10 ++ s))
  | .srai d a s => some (mkI 0x0e#6 d a (0#10 ++ s))
  | .rori d a s => some (mkI 0x0f#6 d a (0#10 ++ s))
  | .ceqi k a i => some (mkI 0x10#6 (0#2 ++ k) a i)
  | .cnei k a i => some (mkI 0x11#6 (0#2 ++ k) a i)
  | .clti k a i => some (mkI 0x12#6 (0#2 ++ k) a i)
  | .cgei k a i => some (mkI 0x13#6 (0#2 ++ k) a i)
  | .cltui k a i => some (mkI 0x14#6 (0#2 ++ k) a i)
  | .cgeui k a i => some (mkI 0x15#6 (0#2 ++ k) a i)
  | .movz d s i => some (mkI 0x16#6 d (0#3 ++ s) i)
  | .movk d s i => some (mkI 0x17#6 d (0#3 ++ s) i)
  | .movn d s i => some (mkI 0x18#6 d (0#3 ++ s) i)
  | .extu d a l p => some (mkI 0x1b#6 d a (0#4 ++ l ++ p))
  | .exts d a l p => some (mkI 0x1b#6 d a (1#4 ++ l ++ p))
  | .ins d a l p => some (mkI 0x1b#6 d a (2#4 ++ l ++ p))
  | .pkk d m => some (mkI 0x1c#6 d 0#5 (0#8 ++ m))
  | .upk a m => some (mkI 0x1d#6 0#5 a (0#8 ++ m))
  | .beq a b o => some (mkI 0x20#6 a b o)
  | .bne a b o => some (mkI 0x21#6 a b o)
  | .blt a b o => some (mkI 0x22#6 a b o)
  | .bge a b o => some (mkI 0x23#6 a b o)
  | .bltu a b o => some (mkI 0x24#6 a b o)
  | .bgeu a b o => some (mkI 0x25#6 a b o)
  | .bkt k o => some (mkI 0x26#6 (0#2 ++ k) 0#5 o)
  | .bkf k o => some (mkI 0x27#6 (0#2 ++ k) 0#5 o)
  | .j o => some (mkJ 0x28#6 o)
  | .call n o => some (mkI 0x29#6 (0#3 ++ n.extractLsb' 5 2) (n.extractLsb' 0 5) o)
  | .jr a => some (mkR 0x2a#6 0#5 a 0#5 0#11)
  | .callr a n => some (mkR 0x2a#6 0#5 a 0#5 (1#4 ++ n))
  | .ret => some (mkR 0x2a#6 0#5 0#5 0#5 0x100#11)
  | .spl d o => some (mkI 0x2c#6 d 0#5 (0#7 ++ o ++ 0#3))
  | .fil d o => some (mkI 0x2d#6 d 0#5 (0#7 ++ o ++ 0#3))
  | .ld d a h i => some (mkM 0x30#6 d a h i)
  | .st s a h i => some (mkM 0x31#6 s a h i)
  | .lda d a h r c z m => some (mkM 0x32#6 d a h (0#4 ++ (Order.bits r) ++ (Scope.bits c) ++ (AtSize.bit z) ++ (BitVec.ofBool m)))
  | .sta d a h r c z m => some (mkM 0x32#6 d a h (1#4 ++ (Order.bits r) ++ (Scope.bits c) ++ (AtSize.bit z) ++ (BitVec.ofBool m)))
  | .amoswap d a h r c z m => some (mkM 0x32#6 d a h (2#4 ++ (Order.bits r) ++ (Scope.bits c) ++ (AtSize.bit z) ++ (BitVec.ofBool m)))
  | .amocas d a h r c z m => some (mkM 0x32#6 (d ++ 0#1) a h (3#4 ++ (Order.bits r) ++ (Scope.bits c) ++ (AtSize.bit z) ++ (BitVec.ofBool m)))
  | .amoadd d a h r c z m => some (mkM 0x32#6 d a h (4#4 ++ (Order.bits r) ++ (Scope.bits c) ++ (AtSize.bit z) ++ (BitVec.ofBool m)))
  | .amoand d a h r c z m => some (mkM 0x32#6 d a h (5#4 ++ (Order.bits r) ++ (Scope.bits c) ++ (AtSize.bit z) ++ (BitVec.ofBool m)))
  | .amoor d a h r c z m => some (mkM 0x32#6 d a h (6#4 ++ (Order.bits r) ++ (Scope.bits c) ++ (AtSize.bit z) ++ (BitVec.ofBool m)))
  | .amoxor d a h r c z m => some (mkM 0x32#6 d a h (7#4 ++ (Order.bits r) ++ (Scope.bits c) ++ (AtSize.bit z) ++ (BitVec.ofBool m)))
  | .amomin d a h r c z m => some (mkM 0x32#6 d a h (8#4 ++ (Order.bits r) ++ (Scope.bits c) ++ (AtSize.bit z) ++ (BitVec.ofBool m)))
  | .amomax d a h r c z m => some (mkM 0x32#6 d a h (9#4 ++ (Order.bits r) ++ (Scope.bits c) ++ (AtSize.bit z) ++ (BitVec.ofBool m)))
  | .amominu d a h r c z m => some (mkM 0x32#6 d a h (0xa#4 ++ (Order.bits r) ++ (Scope.bits c) ++ (AtSize.bit z) ++ (BitVec.ofBool m)))
  | .amomaxu d a h r c z m => some (mkM 0x32#6 d a h (0xb#4 ++ (Order.bits r) ++ (Scope.bits c) ++ (AtSize.bit z) ++ (BitVec.ofBool m)))
  | .amofadd d a h r c m => some (mkM 0x32#6 d a h (0xc#4 ++ (Order.bits r) ++ (Scope.bits c) ++ 0#1 ++ (BitVec.ofBool m)))
  | .ll d a z x i => some (mkM 0x33#6 d a ((MemSize.bits z) ++ (BitVec.ofBool x) ++ 0#1) i)
  | .lm d a z x i => some (mkM 0x33#6 d a ((MemSize.bits z) ++ (BitVec.ofBool x) ++ 1#1) i)
  | .sl s a z i => some (mkM 0x34#6 s a ((MemSize.bits z) ++ 0#2) i)
  | .sm s a z i => some (mkM 0x34#6 s a ((MemSize.bits z) ++ 1#2) i)
  | .xlat d a h w => some (mkM 0x35#6 d a h (0#4 ++ (BitVec.ofBool w) ++ 0#7))
  | .hdrop h => some (mkM 0x35#6 0#5 0#5 h 0x100#12)
  | .pref a h i => some (mkM 0x35#6 0#5 a h (2#4 ++ i))
  | .fence k s => some (mkR 0x36#6 0#5 0#5 0#5 (0#6 ++ (FenceKind.bits k) ++ (Scope.bits s)))
  | .ifence => some (mkR 0x36#6 0#5 0#5 1#5 0#11)
  | .rdid d n => some (mkR 0x36#6 d 0#5 2#5 (0#7 ++ n))
  | .time d => some (mkR 0x36#6 d 0#5 3#5 0#11)
  | .trap e => some (mkR 0x36#6 0#5 0#5 4#5 e)
  | .eret => some (mkR 0x36#6 0#5 0#5 5#5 0#11)
  | .mfsr d n => some (mkR 0x36#6 d 0#5 6#5 (0#7 ++ n))
  | .mtsr a n => some (mkR 0x36#6 0#5 a 7#5 (0#7 ++ n))
  | .xget d k n => some (mkR 0x36#6 d 0#5 8#5 (0#4 ++ (XKind.bits k) ++ n))
  | .xput a k n => some (mkR 0x36#6 0#5 a 9#5 (0#4 ++ (XKind.bits k) ++ n))
  | .start d a => some (mkR 0x37#6 d a 0#5 0#11)
  | .spawn d a b => some (mkR 0x37#6 d a b 0x40#11)
  | .exit => some (mkR 0x37#6 0#5 0#5 0#5 0x80#11)
  | .yield n => some (mkR 0x37#6 0#5 0#5 0#5 (3#5 ++ n))
  | .waitq d n => some (mkR 0x37#6 d 0#5 0#5 (0x40#9 ++ n))
  | .postq d a b n => some (mkR 0x37#6 d a b (0x50#9 ++ n))
  | .taskdec d a => some (mkR 0x37#6 d a 0#5 0x180#11)
  | .msend a b t => some (mkR 0x37#6 0#5 a b (7#5 ++ t))
  | .mrecv d t => some (mkR 0x37#6 d 0#5 0#5 (8#5 ++ t))
  | .pmerge d a b => some (mkR 0x37#6 d a b 0x240#11)
  | .topen d a b => some (mkR 0x3e#6 d a b 0#11)
  | .twrH a b => some (mkR 0x3e#6 0#5 a b 1#11)
  | .twrW a b => some (mkR 0x3e#6 0#5 a b 2#11)
  | .twrD a b => some (mkR 0x3e#6 0#5 a b 3#11)
  | .tpos a b => some (mkR 0x3e#6 0#5 a b 4#11)
  | .trmap a b => some (mkR 0x3e#6 0#5 a b 5#11)
  | .tmaskOr a b => some (mkR 0x3e#6 0#5 a b 6#11)
  | .tmaskClr a b => some (mkR 0x3e#6 0#5 a b 0x46#11)
  | .tmaskSet a b => some (mkR 0x3e#6 0#5 a b 0x86#11)
  | .tstat d a s => some (mkR 0x3e#6 d a 0#5 (s ++ 7#6))
  | .tdrop a => some (mkR 0x3e#6 0#5 a 0#5 8#11)
  | .seal d a => some (mkR 0x3e#6 d a 0#5 9#11)
  | .tcnt d c n => some (mkR 0x3e#6 d 0#5 0#5 (0#3 ++ (BitVec.ofBool c) ++ n ++ 0xa#6))
  | .cpySetr a c n => some (mkR 0x38#6 0#5 a 0#5 (0#2 ++ c ++ 0#3 ++ n))
  | .cpyGetr d c n => some (mkR 0x38#6 d 0#5 0#5 (0#2 ++ c ++ 1#3 ++ n))
  | .cpyDesc d a b => some (mkR 0x38#6 d a b 0x10#11)
  | .cpyDfree d a => some (mkR 0x38#6 d a 0#5 0x11#11)
  | .cpyLin d c => some (mkR 0x38#6 d 0#5 0#5 (0#2 ++ c ++ 0x12#6))
  | .cpyTen d c => some (mkR 0x38#6 d 0#5 0#5 (0#2 ++ c ++ 0x13#6))
  | .cpyTile d a b e o c => some (mkR 0x38#6 d a b ((BitVec.ofBool e) ++ (BitVec.ofBool o) ++ c ++ 0x14#6))
  | .cpyWblk d a p c => some (mkR 0x38#6 d a 0#5 ((BitVec.ofBool p) ++ 0#1 ++ c ++ 0x15#6))
  | .cpyRblk d c => some (mkR 0x38#6 d 0#5 0#5 (0#2 ++ c ++ 0x16#6))
  | .cpyKvg d c => some (mkR 0x38#6 d 0#5 0#5 (0#2 ++ c ++ 0x17#6))
  | .cpyPgin d a c => some (mkR 0x38#6 d a 0#5 (0#2 ++ c ++ 0x18#6))
  | .cpyPgout d a c => some (mkR 0x38#6 d a 0#5 (0#2 ++ c ++ 0x19#6))
  | .cpyAbort d c => some (mkR 0x38#6 d 0#5 0#5 (0#2 ++ c ++ 0x1a#6))
  | .muGetr d a u => some (mkR 0x39#6 d a 0#5 (0#4 ++ u ++ 0#6))
  | .muSetr a b u => some (mkR 0x39#6 0#5 a b (0#4 ++ u ++ 1#6))
  | .muGets d a u => some (mkR 0x39#6 d a 0#5 (0#4 ++ u ++ 2#6))
  | .muSets a b u => some (mkR 0x39#6 0#5 a b (0#4 ++ u ++ 3#6))
  | .muImld a b u => some (mkR 0x39#6 0#5 a b (0#4 ++ u ++ 4#6))
  | .muStart a u => some (mkR 0x39#6 0#5 a 0#5 (0#4 ++ u ++ 5#6))
  | .muStop d u => some (mkR 0x39#6 d 0#5 0#5 (0#4 ++ u ++ 6#6))
  | .muReset u => some (mkR 0x39#6 0#5 0#5 0#5 (0#4 ++ u ++ 7#6))
  | .muSave a b u => some (mkR 0x39#6 0#5 a b (0#4 ++ u ++ 8#6))
  | .muLoad a b u => some (mkR 0x39#6 0#5 a b (0#4 ++ u ++ 9#6))
  | .muResume u => some (mkR 0x39#6 0#5 0#5 0#5 (0#4 ++ u ++ 0xa#6))
  | .lkPost d a b => some (mkR 0x3a#6 d a b 0#11)
  | .lkImld a b => some (mkR 0x3a#6 0#5 a b 1#11)
  | .lkRun a b => some (mkR 0x3a#6 0#5 a b 2#11)
  | .lkHalt d a => some (mkR 0x3a#6 d a 0#5 3#11)
  | .lkStat d a n => some (mkR 0x3a#6 d a 0#5 (0#2 ++ n ++ 4#6))
  | .lkTdesc d a b => some (mkR 0x3a#6 d a b 0x10#11)
  | .lkTfree d a => some (mkR 0x3a#6 d a 0#5 0x11#11)
  | .lkBopen a => some (mkR 0x3a#6 0#5 a 0#5 0x12#11)
  | .lkFetch d a => some (mkR 0x3a#6 d a 0#5 0x13#11)
  | .lkBclose d a => some (mkR 0x3a#6 d a 0#5 0x14#11)
  | .lkBdrop d => some (mkR 0x3a#6 d 0#5 0#5 0x54#11)
  | .lkSeal d a => some (mkR 0x3a#6 d a 0#5 0x15#11)
  | .lkWclr => some (mkR 0x3a#6 0#5 0#5 0#5 0x16#11)
  | .lkFib d a b n => some (mkR 0x3a#6 d a b (0#2 ++ n ++ 0x17#6))
  | .lkSpout d a h => some (mkR 0x3a#6 d a 0#5 (0#1 ++ h ++ 0x18#6))
  | .lkGetc d n => some (mkR 0x3a#6 d 0#5 0#5 (0#2 ++ n ++ 0x19#6))
  | .kvcfg d a => some (mkR 0x3b#6 d a 0#5 0#11)
  | .kvmatch d a p => some (mkR 0x3b#6 d a 0#5 (0#4 ++ (BitVec.ofBool p) ++ 1#6))
  | .kvinsert d a => some (mkR 0x3b#6 d a 0#5 2#11)
  | .kvappend d a => some (mkR 0x3b#6 d a 0#5 3#11)
  | .kvref d a => some (mkR 0x3b#6 d a 0#5 4#11)
  | .kvunref d a p => some (mkR 0x3b#6 d a 0#5 (0#4 ++ (BitVec.ofBool p) ++ 5#6))
  | .kvpin d a => some (mkR 0x3b#6 d a 0#5 6#11)
  | .kvunpin d a => some (mkR 0x3b#6 d a 0#5 7#11)
  | .kvbt d a => some (mkR 0x3b#6 d a 0#5 8#11)
  | .kvtier d a => some (mkR 0x3b#6 d a 0#5 9#11)
  | .kvstat d a => some (mkR 0x3b#6 d a 0#5 0xa#11)
  | .fabSetr a c n => some (mkR 0x3c#6 0#5 a 0#5 (0#3 ++ c ++ 0#3 ++ n))
  | .fabGetr d c n => some (mkR 0x3c#6 d 0#5 0#5 (0#3 ++ c ++ 1#3 ++ n))
  | .fabPut d c => some (mkR 0x3c#6 d 0#5 0#5 (0#3 ++ c ++ 0x10#6))
  | .fabGet d c => some (mkR 0x3c#6 d 0#5 0#5 (0#3 ++ c ++ 0x11#6))
  | .fabPuts d c => some (mkR 0x3c#6 d 0#5 0#5 (0#3 ++ c ++ 0x12#6))
  | .fabTput d e c => some (mkR 0x3c#6 d 0#5 0#5 (0#2 ++ (BitVec.ofBool e) ++ c ++ 0x13#6))
  | .fabSeal d a c => some (mkR 0x3c#6 d a 0#5 (0#3 ++ c ++ 0x14#6))
  | .fabAred d a c => some (mkR 0x3c#6 d a 0#5 (0#3 ++ c ++ 0x15#6))
  | .fabGrp d a b => some (mkR 0x3c#6 d a b 0x16#11)
  | .fabWin d a b => some (mkR 0x3c#6 d a b 0x17#11)
  | .fabWfree d a => some (mkR 0x3c#6 d a 0#5 0x18#11)
  | .fabLstat d a => some (mkR 0x3c#6 d a 0#5 0x19#11)
  | .fabLda d a z c => some (mkR 0x3c#6 d a 0#5 (0#2 ++ (AtSize.bit z) ++ c ++ 0x20#6))
  | .fabSta d a z c => some (mkR 0x3c#6 d a 0#5 (0#2 ++ (AtSize.bit z) ++ c ++ 0x21#6))
  | .fabAmoswap d a z c => some (mkR 0x3c#6 d a 0#5 (0#2 ++ (AtSize.bit z) ++ c ++ 0x22#6))
  | .fabAmocas d a b z c => some (mkR 0x3c#6 d a b (0#2 ++ (AtSize.bit z) ++ c ++ 0x23#6))
  | .fabAmoadd d a z c => some (mkR 0x3c#6 d a 0#5 (0#2 ++ (AtSize.bit z) ++ c ++ 0x24#6))
  | .fabAmoand d a z c => some (mkR 0x3c#6 d a 0#5 (0#2 ++ (AtSize.bit z) ++ c ++ 0x25#6))
  | .fabAmoor d a z c => some (mkR 0x3c#6 d a 0#5 (0#2 ++ (AtSize.bit z) ++ c ++ 0x26#6))
  | .fabAmoxor d a z c => some (mkR 0x3c#6 d a 0#5 (0#2 ++ (AtSize.bit z) ++ c ++ 0x27#6))
  | .fabAmomin d a z c => some (mkR 0x3c#6 d a 0#5 (0#2 ++ (AtSize.bit z) ++ c ++ 0x28#6))
  | .fabAmomax d a z c => some (mkR 0x3c#6 d a 0#5 (0#2 ++ (AtSize.bit z) ++ c ++ 0x29#6))
  | .fabAmominu d a z c => some (mkR 0x3c#6 d a 0#5 (0#2 ++ (AtSize.bit z) ++ c ++ 0x2a#6))
  | .fabAmomaxu d a z c => some (mkR 0x3c#6 d a 0#5 (0#2 ++ (AtSize.bit z) ++ c ++ 0x2b#6))
  | .fabAmofadd d a c => some (mkR 0x3c#6 d a 0#5 (0#3 ++ c ++ 0x2c#6))
  | .dqQcfg d a b => some (mkR 0x3d#6 d a b 0#11)
  | .dqPush d a b => some (mkR 0x3d#6 d a b 1#11)
  | .dqQget d a n => some (mkR 0x3d#6 d a 0#5 (0#2 ++ n ++ 2#6))
  | .dqPrio a b => some (mkR 0x3d#6 0#5 a b 3#11)
  | .dqQen a b => some (mkR 0x3d#6 0#5 a b 4#11)
  | _ => none

/-- The word of a strand or lookup instruction; 0, which no instruction has, for any other. -/
def encode (i : Instr) : W32 := (encode? i).getD 0

/-- CNT as a field of a slot word. -/
def cntBits (n : Nat) (i : Instr) : BitVec n := BitVec.ofNat n (beatsOf i)

/-- OP and MODE of a V instruction (R348, R350, R351). -/
def vCode : Instr → BitVec 6 × BitVec 21
  | .vadd _ => (0x01, 0) | .vsub _ => (0x02, 0) | .vmul _ => (0x03, 0) | .vfma _ => (0x04, 0)
  | .vmin _ => (0x05, 0) | .vmax _ => (0x06, 0) | .vabs _ => (0x07, 0) | .vneg _ => (0x08, 0)
  | .vscl _ => (0x09, 0) | .vadds _ => (0x0A, 0) | .vmov _ => (0x0B, 0) | .vbcast _ => (0x0C, 0)
  | .vredSum _ => (0x0D, 0) | .vredMax _ => (0x0D, 1) | .vrcp _ => (0x0E, 0) | .vrsq _ => (0x0F, 0)
  | .vexp2 _ => (0x10, 0) | .vlog2 _ => (0x11, 0) | .vtanh _ => (0x12, 0) | .vgelu _ => (0x13, 0)
  | .vcvtBf _ m => (0x14, 0#3 ++ m.ifmt ++ m.p ++ BitVec.ofBool m.sc ++ 0#11)
  | .vcvtFb _ m => (0x14, 1#3 ++ m.ifmt ++ m.p ++ BitVec.ofBool m.sc ++ 0#11)
  | .vcvtFi _ m => (0x14, 2#3 ++ m.ifmt ++ m.p ++ BitVec.ofBool m.sc ++ 0#11)
  | .vcvtIf _ m => (0x14, 3#3 ++ m.ifmt ++ m.p ++ BitVec.ofBool m.sc ++ 0#11)
  | .vrope _ => (0x15, 0)
  | _ => (0, 0)

/-- The words of a V instruction (R346), low word first. -/
def encodeV (x : VOp) (i : Instr) : List W32 :=
  [x.guard ++ (vCode i).1 ++ x.wid.bits ++ cntBits 4 i ++ x.vd ++ x.va ++ x.ty.bits ++ 0#2,
   x.vb ++ x.ss ++ (vCode i).2]

/-- The low words of an S instruction of OP 1 or 7. -/
def sWord (g : BitVec 4) (op : BitVec 4) (sd sa sb : BitVec 5) (fn : BitVec 4) : List W32 :=
  [g ++ op ++ sd ++ sa ++ sb ++ fn ++ 0#5]

/-- The words of a press slot instruction (R337, R339, R346, R353, R356, R359, R364); none for any other. -/
def encodeSlot (i : Instr) : List W32 :=
  match vFields i with
  | some x => encodeV x i
  | none =>
    match i with
    | .mma x => [x.guard ++ 1#4 ++ cntBits 8 i ++ x.yt ++ x.bank ++ x.trow ++ 0#4,
        x.brow ++ x.n1 ++ x.kx1 ++ x.koff ++ BitVec.ofBool x.aw ++ 0#5]
    | .mmak x => [x.guard ++ 2#4 ++ cntBits 8 i ++ x.yt ++ x.bank ++ x.trow ++ 0#4,
        x.brow ++ x.n1 ++ x.kx1 ++ x.koff ++ BitVec.ofBool x.aw ++ 0#5]
    | .azero g bank tag => [g ++ 1#4 ++ cntBits 7 i ++ bank ++ tag ++ 0#10]
    | .aread g bank row v8 haar => [g ++ 2#4 ++ cntBits 7 i ++ bank ++ row ++ v8 ++ BitVec.ofBool haar ++ 0#5]
    | .areadC g bank row v8 => [g ++ 3#4 ++ cntBits 7 i ++ bank ++ row ++ v8 ++ 0#6]
    | .awrite g bank row v8 acc => [g ++ 4#4 ++ cntBits 7 i ++ bank ++ row ++ v8 ++ BitVec.ofBool acc ++ 0#5]
    | .abias g bank row0 v8 n1 => [g ++ 5#4 ++ cntBits 7 i ++ bank ++ row0 ++ v8 ++ n1 ++ 0#1]
    | .astore g bank y row0 n1 haar =>
      [g ++ 6#4 ++ cntBits 7 i ++ bank ++ y ++ row0 ++ n1 ++ BitVec.ofBool haar]
    | .astoreW g bank y sp => [g ++ 7#4 ++ cntBits 7 i ++ bank ++ y ++ sp ++ 0#6]
    | .bload g y plane k0 n1 bw => [g ++ 1#4 ++ cntBits 7 i ++ y ++ plane ++ k0 ++ n1 ++ bw]
    | .bswapp g => [g ++ 2#4 ++ cntBits 7 i ++ 0#17]
    | .bscl g plane vs => [g ++ 3#4 ++ cntBits 7 i ++ plane ++ vs ++ 0#10]
    | .qpop g y q => [g ++ 1#4 ++ y ++ q ++ 0#19]
    | .qrel g y => [g ++ 2#4 ++ y ++ 0#21]
    | .qpush g y u q => [g ++ 3#4 ++ y ++ 0#1 ++ u ++ q ++ 0#17]
    | .qpushE g y core eq => [g ++ 3#4 ++ y ++ 1#1 ++ core ++ eq ++ 0#14]
    | .sadd g sd sa sb => sWord g 1 sd sa sb 0
    | .ssub g sd sa sb => sWord g 1 sd sa sb 1
    | .sand g sd sa sb => sWord g 1 sd sa sb 2
    | .sor g sd sa sb => sWord g 1 sd sa sb 3
    | .sxor g sd sa sb => sWord g 1 sd sa sb 4
    | .sshl g sd sa sb => sWord g 1 sd sa sb 5
    | .sshr g sd sa sb => sWord g 1 sd sa sb 6
    | .ssra g sd sa sb => sWord g 1 sd sa sb 7
    | .smul g sd sa sb => sWord g 1 sd sa sb 8
    | .smin g sd sa sb => sWord g 1 sd sa sb 9
    | .smax g sd sa sb => sWord g 1 sd sa sb 10
    | .sminu g sd sa sb => sWord g 1 sd sa sb 11
    | .smaxu g sd sa sb => sWord g 1 sd sa sb 12
    | .sfadd g sd sa sb => sWord g 7 sd sa sb 0
    | .sfsub g sd sa sb => sWord g 7 sd sa sb 1
    | .sfmul g sd sa sb => sWord g 7 sd sa sb 2
    | .sfmin g sd sa sb => sWord g 7 sd sa sb 3
    | .sfmax g sd sa sb => sWord g 7 sd sa sb 4
    | .sfrcp g sd sa => sWord g 7 sd sa 0 5
    | .sfrsq g sd sa => sWord g 7 sd sa 0 6
    | .sitof g sd sa => sWord g 7 sd sa 0 7
    | .sftoi g sd sa => sWord g 7 sd sa 0 8
    | .saddi g sd sa e => [g ++ 2#4 ++ sd ++ sa ++ e]
    | .smovi g sd e => [g ++ 3#4 ++ sd ++ e]
    | .smovh g sd e => [g ++ 4#4 ++ sd ++ 0#3 ++ e]
    | .scmp g cn cm sa sb cond => [g ++ 5#4 ++ cn ++ cm ++ sa ++ sb ++ cond ++ 0#3]
    | .scmpi g cn cm sa cond e => [g ++ 6#4 ++ cn ++ cm ++ sa ++ cond ++ e]
    | .sget g sd n => [g ++ 8#4 ++ sd ++ n ++ 0#11]
    | .sset g n sa => [g ++ 9#4 ++ n ++ sa ++ 0#11]
    | .svget g sd vs lane => [g ++ 10#4 ++ sd ++ vs ++ lane ++ 0#8]
    | .pand g cd ca cb => [g ++ 11#4 ++ cd ++ ca ++ cb ++ 0#2 ++ 0#10]
    | .por g cd ca cb => [g ++ 11#4 ++ cd ++ ca ++ cb ++ 1#2 ++ 0#10]
    | .pxor g cd ca cb => [g ++ 11#4 ++ cd ++ ca ++ cb ++ 2#2 ++ 0#10]
    | .pandn g cd ca cb => [g ++ 11#4 ++ cd ++ ca ++ cb ++ 3#2 ++ 0#10]
    | .br g tgt => [g ++ 1#4 ++ 0#10 ++ tgt]
    | .loop g s tgt => [g ++ 2#4 ++ s ++ 0#5 ++ tgt]
    | .stop g => [g ++ 3#4 ++ 0#24]
    | _ => []

/-- The header of a bundle of the given instructions (R328). -/
def bundleHeader (stop : Bool) (is : List Instr) : W32 :=
  BitVec.ofNat 32 ((is.map (fun i => match pressSlotOf i with | some sl => 2 ^ sl.maskBit | none => 0)).sum +
    (if stop then 2 ^ 23 else 0))

/-- The words of a bundle whose instructions stand in mask order (R329, R130). -/
def encodeBundle (stop : Bool) (is : List Instr) : List W32 :=
  bundleHeader stop is :: is.flatMap encodeSlot

/-- The instruction that the decoder reads from an opcode-table word: the table's rows with bits are strand words of
32 bits. A word of another length is none of them. -/
noncomputable def decodeTableWord (nbits w : Nat) : Option Instr :=
  if nbits = 32 then
    match decode (BitVec.ofNat 32 w) with
    | .ok i => some i
    | .error _ => none
  else none

end Sys2Proof
end

