-- ==== Sys2Proof/Machine/Matrix.lean ====
section
/-! DEFINITION. The arithmetic of the press: elements of tiles and planes (R94, R96), matrix products (R103 to R107), conversions
(R109 to R111), the Haar transform and thresholds (R118 to R120, R341). -/
namespace Sys2Proof.Machine

/-! ### Elements (R87, R94, R96) -/

/-- Bits of an element of a format code. -/
def fmtBits (f : Nat) : Nat := match f with | 0 => 32 | 1 => 16 | 4 | 5 => 4 | _ => 8

/-- Codes of the integer formats. -/
def intFmt (f : Nat) : Bool := decide (2 ≤ f) && decide (f ≤ 5)

/-- Element `k` of a row held as a number. -/
def element (f row k : Nat) : Nat := nf row (fmtBits f * k) (fmtBits f)

/-- The value of an integer code (R94). -/
def intValue (f c : Nat) : Int :=
  match f with
  | 2 => sfield 8 c | 4 => sfield 4 c | 3 => (nf c 0 8 : Nat) | _ => (nf c 0 4 : Nat)

/-- One term of a TS8 byte on the grid 2^−6 (R96). -/
def ts8Term (c : Nat) : Int :=
  if nf c 0 3 = 7 then 0 else let t : Int := (2 ^ (6 - nf c 0 3) : Nat); if nb c 3 then -t else t

/-- A TS8 byte on the grid 2^−6. -/
def ts8Value (c : Nat) : Int := ts8Term (nf c 4 4) + ts8Term (nf c 0 4)

/-! ### Products (R103 to R107) -/

/-- What a product of two BF16 codes is: a NaN with its flag, an infinity, a zero, or P × 2^x. -/
inductive Product where
  | nan (nv : Bool)
  | inf (neg : Bool)
  | zero (neg : Bool)
  | fin (neg : Bool) (p : Nat) (x : Int)
deriving DecidableEq, Repr

/-- A BF16 code as the FP32 word that it widens to (R88). -/
def widen (c : Nat) : Nat := nf c 0 16 * 2 ^ 16

/-- Significand and exponent of a finite BF16 code (R105). -/
def bfParts (c : Nat) : Nat × Int :=
  if nf c 7 8 = 0 then (nf c 0 7, -126) else (128 + nf c 0 7, (nf c 7 8 : Int) - 127)

/-- A product of two BF16 codes (R105, R107). -/
def bfProduct (a b : Nat) : Product :=
  let x := fpOf (widen a)
  let y := fpOf (widen b)
  let neg := x.neg != y.neg
  if x.isNaN || y.isNaN then .nan (x.isSNaN || y.isSNaN)
  else if zeroTimesInf x y then .nan true
  else match x, y with
    | .inf _, _ => .inf neg
    | _, .inf _ => .inf neg
    | _, _ =>
      let p := (bfParts a).1 * (bfParts b).1
      if p = 0 then .zero neg else .fin neg p ((bfParts a).2 + (bfParts b).2 - 14)

def Product.isNaN : Product → Bool | .nan _ => true | _ => false
def Product.nv : Product → Bool | .nan v => v | _ => false
def Product.isInf (n : Bool) : Product → Bool | .inf m => m == n | _ => false
def Product.negZero : Product → Bool | .zero n => n | _ => false
def Product.exp : Product → Option Int | .fin _ _ x => some x | _ => none

/-- T_k of R105. -/
def Product.term (top : Int) : Product → Int
  | .fin neg p x =>
    let s := x - top + 26
    let t : Int := if 0 ≤ s then (p * 2 ^ s.toNat : Nat) else (p / 2 ^ (-s).toNat : Nat)
    if neg then -t else t
  | _ => 0

/-- The largest of some exponents. -/
def largest : List Int → Option Int
  | [] => none
  | x :: xs => match largest xs with | none => some x | some y => some (max x y)

/-- The result of one group (R105 to R107); an absent group gives +0. -/
def groupSum (ps : List Product) : FRes :=
  if ps.any Product.isNaN then (cNaN, nvIf (ps.any Product.nv))
  else
    let plus := ps.any (Product.isInf false)
    let minus := ps.any (Product.isInf true)
    if plus && minus then (cNaN, fNV)
    else if plus || minus then (infWord minus, 0)
    else match largest (ps.filterMap Product.exp) with
      | none => (signBit (!ps.isEmpty && ps.all Product.negZero), 0)
      | some top =>
        let w := (ps.map (Product.term top)).sum
        if w = 0 then (0, 0) else roundF 23 0 (decide (w < 0)) w.natAbs (top - 26)

/-- An FP32 sum with RNE, the flags collected. -/
def addR (a b : FRes) : FRes :=
  let r := fpAdd 23 0 (fpOf a.1) (fpOf b.1)
  (r.1, a.2 ||| b.2 ||| r.2)

/-- The tree of R106. -/
def groupTree (f : Nat → FRes) : FRes :=
  addR (addR (addR (f 0) (f 1)) (addR (f 2) (f 3))) (addR (addR (f 4) (f 5)) (addR (f 6) (f 7)))

/-- The value that a pass adds, for element codes `a k` and `b k` below `kx` (R103 to R106). -/
def passSum (af bf kx : Nat) (scale : Nat) (a b : Nat → Nat) : FRes :=
  if af = 1 then
    groupTree (fun g => groupSum (((List.range 32).filter (fun j => decide (32 * g + j < kx))).map
      (fun j => bfProduct (a (32 * g + j)) (b (32 * g + j)))))
  else if bf = 6 then
    let s := ((List.range kx).map (fun k => intValue af (a k) * ts8Value (b k))).sum
    fpMul 23 0 (.fin (decide (s < 0)) s.natAbs (-6)) (fpOf scale)
  else
    fpOfInt 23 0 ((List.range kx).map (fun k => intValue af (a k) * intValue bf (b k))).sum

/-- The legal pairs of R99. -/
def pairOk (af bf : Nat) : Bool :=
  if af = 1 then decide (bf = 1) else intFmt af && decide (2 ≤ bf) && decide (bf ≤ 6)

/-! ### Rows of FP32 elements -/

/-- Element `n` of a row of FP32 words. -/
def rowElem (r : BitVec 8192) (n : Nat) : Nat := nf r.toNat (32 * n) 32

/-- A number made of `w`-bit pieces, the first lowest. -/
def packBits (w : Nat) : List Nat → Nat
  | [] => 0
  | x :: xs => x % 2 ^ w + 2 ^ w * packBits w xs

/-- A row from its 256 elements. -/
def mkRow (xs : List Nat) : BitVec 8192 := BitVec.ofNat 8192 (packBits 32 xs)

/-- Flags of a list of results. -/
def flagsOf (xs : List FRes) : W32 := xs.foldl (fun acc x => acc ||| x.2) 0

/-- A row computed element by element, with the flags. -/
def rowOf256 (f : Nat → FRes) : BitVec 8192 × W32 :=
  let xs := (List.range 256).map f
  (mkRow (xs.map (·.1)), flagsOf xs)

/-! ### Conversions (R109 to R111) -/

/-- What converting elements changes besides the result: flags, the largest magnitude, saturations. -/
structure Conv where
  flags : W32 := 0
  amax  : Nat := 0
  satc  : Nat := 0
deriving DecidableEq, Repr

def Conv.join (a b : Conv) : Conv := ⟨a.flags ||| b.flags, max a.amax b.amax, a.satc + b.satc⟩

/-- SUB and SYM of NFMT (R98). -/
def subOf (nfmt : Nat) : Nat := nf nfmt 8 8
def symOf (nfmt : Nat) : Bool := nb nfmt 16

/-- The factor of a conversion, applied exactly: the value, and NV where it makes a NaN of a source that is none (R351). -/
def scaledBy (x : Fp) (s : Option Nat) : Fp × W32 :=
  match s with
  | none => (x, 0)
  | some w =>
    let f := fpOf w
    if x.isNaN then (x, 0)
    else if f.isNaN then (.nan false, nvIf f.isSNaN)
    else if zeroTimesInf x f then (.nan false, fNV)
    else (prodExact x f, 0)

/-- Conversion of a source value, whose FP32 magnitude is `mag`, to a narrow integer format (R109, R351). -/
def toNarrow (fmt nfmt : Nat) (x : Fp) (mag : Nat) (s : Option Nat) : Nat × Conv :=
  let y := scaledBy x s
  let r := fpToCode (fmtBits fmt) (decide (fmt = 2) || decide (fmt = 4)) (symOf nfmt) (subOf nfmt) y.1
  (r.1, ⟨r.2.1 ||| y.2, if x.isNaN then 0 else mag, b2n r.2.2⟩)

/-- Conversion to BF16 or FP32, in FP32 layout, `f` fraction bits (R110, R351). -/
def toFloat (f : Nat) (x : Fp) (mag : Nat) (s : Option Nat) : Nat × Conv :=
  let y := scaledBy x s
  let r := fpNarrow f 0 y.1
  (r.1, ⟨r.2 ||| y.2 ||| (if y.1.isNaN then fNANS else 0), if x.isNaN then 0 else mag, 0⟩)

/-- An FP32 element as it is stored in a tile of a format (R344): the code. -/
def toTile (fmt nfmt v : Nat) : Nat × Conv :=
  if fmt = 0 then (v, {})
  else if fmt = 1 then let r := toFloat 7 (fpOf v) (magnitude v) none; (r.1 / 2 ^ 16, r.2)
  else toNarrow fmt nfmt (fpOf v) (magnitude v) none

/-- A tile row of `pitch` units from FP32 elements: its bytes, and what the conversions change (R344). -/
def tileRowOf (fmt nfmt pitch : Nat) (x : BitVec 8192) : List Byte × Conv :=
  let n := min 256 (512 * pitch / fmtBits fmt)
  let cs := (List.range n).map (fun k => toTile fmt nfmt (rowElem x k))
  (leBytes (64 * pitch) (packBits (fmtBits fmt) (cs.map (·.1))), (cs.map (·.2)).foldl Conv.join {})

/-! ### Haar transform (R118 to R120, R341) -/

/-- RNE((a ± b)/2), formed exactly and rounded once (R118). -/
def halfSum (a b : Fp) : FRes :=
  match a, b with
  | .fin na ma ea, .fin nb' mb eb => sumFin 23 0 na ma (ea - 1) nb' mb (eb - 1)
  | x, y => fpAdd 23 0 x y

/-- One level on a list of approximations: the new approximations and the details. -/
def haarLevel : List FRes → List FRes × List FRes
  | x :: y :: rest =>
    let r := haarLevel rest
    (halfSum (fpOf x.1) (fpOf y.1) :: r.1, halfSum (fpOf x.1) (fpOf y.1).flip :: r.2)
  | _ => ([], [])

/-- The forward transform of 32 words: 32 coefficients in the order of R118, with the flags of every step. -/
def haarForward (x : List Nat) : List Nat × W32 :=
  let l1 := haarLevel (x.map (fun v => (v, 0)))
  let l2 := haarLevel l1.1
  let l3 := haarLevel l2.1
  let l4 := haarLevel l3.1
  let l5 := haarLevel l4.1
  let all := l5.1 ++ l5.2 ++ l4.2 ++ l3.2 ++ l2.2 ++ l1.2
  (all.map (·.1), flagsOf (all ++ l1.1 ++ l2.1 ++ l3.1 ++ l4.1))

/-- The flags of a step of the unwind: NV for ∞ − ∞, OF and NX for an overflow (R341). -/
def unwindFlags (a b : Fp) (r : FRes) : W32 :=
  (match a, b with | .inf m, .inf n => nvIf (m != n) | _, _ => 0)
    ||| (if r.2 &&& fOF = 0 then 0 else fOF ||| fNX)

/-- Position `p` of one column from its 32 coefficients `c` (R341). -/
def unwindElem (c : Nat → Nat) (p : Nat) : FRes :=
  [5, 4, 3, 2, 1].foldl (fun acc l =>
    let a := fpOf acc.1
    let d := fpOf (c (2 ^ (5 - l) + p / 2 ^ l))
    let d' := if nb p (l - 1) then d.flip else d
    let r := fpAdd 23 0 a d'
    (r.1, acc.2 ||| unwindFlags a d' r)) (c 0, 0)

/-- Position `p` of a bank. -/
def unwindRow (bank : Nat → BitVec 8192) (p : Nat) : BitVec 8192 × W32 :=
  rowOf256 (fun n => unwindElem (fun i => rowElem (bank i) n) p)

/-- The level of a coefficient index from 1 upward (R118). -/
def haarLevelOf (i : Nat) : Nat := if i < 2 then 5 else if i < 4 then 4 else if i < 8 then 3 else if i < 16 then 2 else 1

/-- Thresholding of a coefficient (R120). -/
def threshold (th : Nat → Nat) (i v : Nat) : Nat :=
  if i = 0 then v
  else
    let t := th (haarLevelOf i)
    if (fpOf t).isNaN || nb t 31 || (fpOf v).isNaN then v
    else if magnitude v < magnitude t then 0 else v

/-- The coefficient rows of a bank after thresholding (R118, R120, R345): transformed if the bank is PLAIN. -/
def coefficientRows (bank : Nat → BitVec 8192) (plain : Bool) (th : Nat → Nat) : List (BitVec 8192) × W32 :=
  let cols := (List.range 256).map (fun n =>
    let x := (List.range 32).map (fun r => rowElem (bank r) n)
    let c := if plain then haarForward x else (x, 0)
    (c.1.zipIdx.map (fun e => threshold th e.2 e.1), c.2))
  ((List.range 32).map (fun i => mkRow (cols.map (fun c => nth 0 c.1 i))), cols.foldl (fun acc c => acc ||| c.2) 0)

/-- Some element of a row is not ±0 (R345). -/
def rowSurvives (x : BitVec 8192) : Bool := (List.range 256).any (fun n => decide (magnitude (rowElem x n) ≠ 0))

end Sys2Proof.Machine
end

