-- ==== Sys2Proof/Machine/PressCore.lean ====
section
/-! DEFINITION. How every press instruction runs: registers and rotation (R294, R301), results that become visible later (R305,
R333, R334), commits (R336), faults (R321, R322), reservations and holds (R299, R300, R306, R309, R335). -/
namespace Sys2Proof.Machine

/-! ### Registers -/

/-- The press whose instruction runs. -/
def State.pr (s : State) : Press := s.pressAt s.press

/-- Unit number of a press (R58), and its cluster. -/
def pressUnit (p : Nat) : Nat := 1664 + p
def pressCluster (p : Nat) : Nat := p / 2

/-- n of R301. -/
def Press.rot (x : Press) : Nat := match x.rsize.toNat with | 0 => 0 | 1 => 8 | 2 => 16 | _ => 32

/-- The physical register that name vi denotes (R301). -/
def Press.phys (x : Press) (i : Nat) : Nat :=
  if 32 ≤ i ∧ i < 32 + x.rot then 32 + (i - 32 + x.rrb.toNat) % x.rot else i

/-- A vector register by its name, and its domain tag (R37). -/
def Press.vreg (x : Press) (i : Nat) : BitVec 1024 := mget 0 x.v (x.phys i)
def Press.vHaar (x : Press) (i : Nat) : Bool := x.vtag.getLsbD (x.phys i)

def Press.sreg (x : Press) (i : BitVec 5) : W32 := mget 0 x.s i.toNat
/-- A predicate; c0 reads as 1 (R294). -/
def Press.creg (x : Press) (i : BitVec 4) : Bool := decide (i = 0) || x.c.getLsbD i.toNat
def Press.bank (x : Press) (b : Nat) : Map (BitVec 8192) := mget [] x.acc b
def Press.row (x : Press) (b r : Nat) : BitVec 8192 := mget 0 (x.bank b) r
def Press.tagOf (x : Press) (b : Nat) : Nat := (mget 0 x.tags b).toNat
def Press.plane (x : Press) (p : Nat) : Plane := mget {} x.planes p
def Press.setPlane (x : Press) (p : Nat) (q : Plane) : Press := { x with planes := mset {} x.planes p q }
/-- The active plane (R295). -/
def Press.activeP (x : Press) : Nat := b2n x.active1
def Press.tileReg (x : Press) (y : Nat) : TileReg := mget {} x.y y
def Press.setTile (x : Press) (y : Nat) (r : TileReg) : Press := { x with y := mset {} x.y y r }

/-- A write of NFMT: reserved codes leave their field, reserved bits are 0 (R11, R98). -/
def nfmtWrite (old v : Nat) : Nat :=
  (if 1 ≤ nf v 0 3 ∧ nf v 0 3 ≤ 5 then nf v 0 3 else nf old 0 3)
    + (if 1 ≤ nf v 4 3 ∧ nf v 4 3 ≤ 6 then nf v 4 3 else nf old 4 3) * 16 + nf v 8 9 * 256

/-- NFMT in force at the bundle of an ordinal (R313). -/
def Press.nfmtAt (x : Press) (j : Nat) : Nat :=
  (x.nfmtPend.filter (fun e => decide (e.2 ≤ j))).foldl (fun acc e => nfmtWrite acc e.1.toNat) x.nfmt.toNat

/-- NFMT once the writes that govern the next bundle have taken effect (R313). -/
def Press.settleNfmt (x : Press) : Press :=
  { x with nfmt := w32 (x.nfmtAt x.bundles), nfmtPend := x.nfmtPend.filter (fun e => decide (x.bundles < e.2)) }

/-! ### Faults (R321, R322) -/

/-- FCAUSE. -/
def faultWord (f : PressFaultRec) : W32 :=
  w32 (f.code % 256 + f.slot % 8 * 2 ^ 8 + b2n f.res * 2 ^ 11 + f.fslip % 8 * 2 ^ 12 + b2n f.part * 2 ^ 15 + f.arg % 2 ^ 16 * 2 ^ 16)

/-- A fault is recorded, and the running slots drain (R314); after the first one nothing more is recorded. -/
def State.raise (s : State) (p : Nat) (f : PressFaultRec) : State :=
  s.updPress p (fun x =>
    if x.faulted || !(decide (x.st = .run) || decide (x.st = .stopping)) then x
    else { x with
      fcause := faultWord f, fpc := w32 f.fpc, faulted := true, faultAt := x.cycle, issue := [], found := none
      nextAt := if f.part then x.beat else x.beat + 1
      slotFree := if f.part then merase x.slotFree f.slot else x.slotFree })

/-- A problem of an instruction: the code, and what ARG may name. -/
abbrev Problem := Nat × List Nat

/-- The problem of lowest code (R321). -/
def leastProblem : List Problem → Option Problem
  | [] => none
  | e :: es => match leastProblem es with
    | none => some e
    | some m => if e.1 ≤ m.1 then some e else some m

/-- ARG; where several numbers are involved, any of them (R322; log entry 25). -/
def State.pickArg (s : State) (args : List Nat) : Nat × State :=
  match args with
  | [] => (0, s)
  | [a] => (a, s)
  | _ => (nth 0 args (s.fresh.1.toNat % args.length), s.fresh.2)

/-! ### Results that become visible (R305, R333, R336) -/

def setBit64 (v : BitVec 64) (i : Nat) (b : Bool) : BitVec 64 := if b then v ||| (1#64 <<< i) else v &&& ~~~(1#64 <<< i)
def setBit16 (v : BitVec 16) (i : Nat) (b : Bool) : BitVec 16 := if b then v ||| (1#16 <<< i) else v &&& ~~~(1#16 <<< i)

/-- A sum that holds at 0xFFFF_FFFF (R101, R298). -/
def satAdd (v : W32) (n : Nat) : W32 := w32 (min (v.toNat + n) 0xFFFFFFFF)

/-- AMAX after candidate `c`; 0 changes nothing (R109, R111). An AMAX that software has written is kept as written, negative or NaN
too, and the maximum with it is that of R205 (R101; log entry 87). -/
def amaxWith (old c : W32) : W32 := if c = 0 then old else w32 (fpMin old.toNat c.toNat true).1

/-- A change of the press alone. -/
def Press.applyWrite (x : Press) : PWrite → Press
  | .v i val haar => { x with v := mset 0 x.v i val, vtag := setBit64 x.vtag i haar }
  | .s i val => { x with s := mset 0 x.s i val }
  | .c i val => if i = 0 then x else { x with c := setBit16 x.c i val }
  | .th i val => { x with th := mset 0 x.th i val }
  | .row b r val => { x with acc := mset [] x.acc b (mset 0 (x.bank b) r val) }
  | .tag b code => { x with tags := mset 0 x.tags b (BitVec.ofNat 4 code) }
  | .dropped b n => { x with dropc := mset 0 x.dropc b (satAdd (mget 0 x.dropc b) n) }
  | .planeRow p r val => let q := x.plane p; x.setPlane p { q with rows := mset 0 q.rows r val }
  | .planeEnd p k => let q := x.plane p; x.setPlane p { q with kext := max q.kext k, valid := true, loading := false }
  | .planeStop p f v k sc => let q := x.plane p; x.setPlane p { q with loading := false, rfmt := f, valid := v, kext := k, scales := sc }
  | .swap => { x with active1 := !x.active1 }
  | .scales p val => let q := x.plane p; x.setPlane p { q with scales := val }
  | .rdy y => let r := x.tileReg y; if r.v && !r.arm then x.setTile y { r with rdy := true } else x
  | .gone y => x.setTile y {}
  | .setPfs clear => { x with pfs := x.pfs &&& ~~~clear }
  | .setAmax v => { x with amax := v }
  | .setSatc v => { x with satc := v }
  | .commit flags amax satc => { x with pfs := x.pfs ||| flags, amax := amaxWith x.amax amax, satc := satAdd x.satc satc }
  | .tile .. => x
  | .part .. => x

/-- Rows, mask, RMAP and POS0 of a tile as a press writes them (R344, R345). -/
def Buffer.stored (b : Buffer) (mask : BitVec 64) : Option (List Nat × BitVec 24) → Buffer
  | none => { b with vmask := b.vmask ||| mask }
  | some (codes, pos0) => { b with
      vmask := mask, pos := mset 0 b.pos 0 pos0,
      rmap := codes.zipIdx.foldl (fun m e => mset 0 m e.2 (BitVec.ofNat 5 e.1)) b.rmap }

/-- The same in the snapshot. -/
def TileReg.stored (r : TileReg) (mask : BitVec 64) : Option (List Nat × BitVec 24) → TileReg
  | none => { r with vmask := r.vmask ||| mask }
  | some (codes, pos0) => { r with
      vmask := mask, pos := mset 0 r.pos 0 pos0,
      rmap := codes.zipIdx.foldl (fun m e => mset 0 m e.2 (BitVec.ofNat 5 e.1)) r.rmap }

/-- What an ASTORE or ASTORE.W leaves in the tile, all its rows together: nothing once the buffer has been freed (R344; log entry
104). -/
def State.pressStore (s : State) (h : W32) (rows : List (Nat × List Byte)) (mask : BitVec 64)
    (haar : Option (List Nat × BitVec 24)) : State :=
  let r := tileRef h
  let b := s.buf r.cl r.b
  if b.gen ≠ r.gen then s
  else (rows.foldl (fun t e => t.put (rowKey r.cl r.b b e.1 0) e.2) s).setBuf r.cl r.b (b.stored mask haar)

/-- The errors of rows of a plane are gone: they have been written whole (R498). -/
def State.cleanRows (s : State) (p pl r n : Nat) : State :=
  { s with poison := s.poison.filter (fun g => decide (8 * g < planeKey p pl r) || decide (planeKey p pl (r + n) ≤ 8 * g)) }

/-- A change of press `p` takes place. -/
def State.applyWrite (s : State) (p : Nat) (w : PWrite) : State :=
  match w with
  | .tile y h rows mask haar => (s.pressStore h rows mask haar).updPress p (fun x =>
      if (x.tileReg y).handle = h then x.setTile y ((x.tileReg y).stored mask haar) else x)
  | .part rec_ key => (s.memError key).raise p rec_
  | .planeRow pl r val => (s.cleanRows p pl r 1).updPress p (fun x => x.applyWrite (.planeRow pl r val))
  | w => s.updPress p (fun x => x.applyWrite w)

/-- An SSET, applied before the commits of its beat (R336). -/
def PWrite.early : PWrite → Bool
  | .setPfs _ | .setAmax _ | .setSatc _ => true
  | _ => false

/-- Everything that is due at beat `t` takes place, in the order of issue (R334). -/
def State.settleAt (s : State) (p t : Nat) : State :=
  let x := s.pressAt p
  let due := (x.pend.filter (fun e => decide (e.1 ≤ t))).map (·.2)
  ((due.filter PWrite.early) ++ due.filter (fun w => !w.early)).foldl (fun a w => a.applyWrite p w)
    (s.setPress p { x with pend := x.pend.filter (fun e => !decide (e.1 ≤ t)) })

/-- Results that the running instruction leaves for beat `t`. -/
def State.later (s : State) (t : Nat) (ws : List PWrite) : State :=
  s.updPress s.press (fun x => { x with pend := x.pend ++ ws.map (fun w => (t, w)) })

/-- The commit of what conversions and arithmetic change, at beat `t` (R102, R336). -/
def State.commits (s : State) (t : Nat) (c : Conv) : State :=
  if c = {} then s else s.later t [.commit c.flags (w32 c.amax) c.satc]

/-! ### Running an instruction -/

/-- How an instruction uses the tile register it names (R335). -/
inductive TileUse where
  | reads | writes | gives
deriving DecidableEq, Repr

/-- Where a QPUSH puts its tile: a queue of a press of the cluster, or an event queue (R358). -/
inductive PushTo where
  | queue (u q : Nat)
  | event (unit n : Nat)
deriving DecidableEq, Repr

/-- What an instruction sees at its issue or resume: the press, the beat, NFMT, and its latched operands (R305, R309). -/
structure PCtx where
  x    : Press
  t    : Nat
  nfmt : Nat
  sreg : BitVec 5 → W32
  th   : Nat → Nat

/-- An instruction of a press: what it needs, what it checks, what it does when its guard is 1. -/
structure Spec where
  slot  : PressSlot
  guard : BitVec 4
  beats : Nat
  bank  : Option Nat := none
  lanes : List Nat := []
  tile  : Option (Nat × TileUse) := none
  push  : Option PushTo := none
  check : PCtx → List Problem
  eff   : PCtx → State → State

/-- M, A, V0, V1 and C have a beat count (R306). -/
def Spec.engine (e : Spec) : Bool := decide (e.slot.code < 5)

/-- A resource table says "free at `t`". -/
def freeAt (m : Map Nat) (k t : Nat) : Bool := decide (mget 0 m k ≤ t)

/-- The tickets of QPUSH instructions of press `p` that wait for event queue `n` of core `u` (R311, R358). -/
def eventTickets (p : Nat) (x : Press) (u n : Nat) : List Nat :=
  x.held.filterMap (fun e => match e.2.instr with
    | .qpushE _ _ c q => if 16 * pressCluster p + c.toNat = u ∧ q.toNat = n ∧ e.2.ticket ≠ 0 then some e.2.ticket else none
    | _ => none)

/-- Those of both presses of the core's cluster. -/
def State.eventPushes (s : State) (u n : Nat) : List Nat :=
  [0, 1].flatMap (fun m => eventTickets (pressNo (clusterOf u) m) (s.pressAt (pressNo (clusterOf u) m)) u n)

/-- A wait of ticket `k`, or one that would begin now (0), comes behind another. -/
def behind (k : Nat) (ts : List Nat) : Bool := ts.any (fun t => decide (k = 0) || decide (t < k))

/-- The push of a QPUSH has to wait: its queue is full, or others began to wait earlier than ticket `k` (R311, R358). -/
def State.pushWaits (s : State) (p k : Nat) : Option PushTo → Bool
  | none => false
  | some (.queue u q) =>
    let cl := pressCluster p
    !s.hasPlace cl u q || behind k (s.queueTickets cl u q)
  | some (.event u n) => decide (16 ≤ ((s.core u).eqOf n).length) || behind k (s.eventPushes u n)

/-- The tile register keeps an instruction waiting (R309, R335). -/
def Press.tileWaits (x : Press) (t : Nat) : Option (Nat × TileUse) → Bool
  | none => false
  | some (y, use) => !(x.tileReg y).rdy || !freeAt x.yWriter y t || (decide (use = .gives) && !freeAt x.yReader y t)

/-- Reservations for the beats from `t` (R299, R300, R306, R335). -/
def Press.reserve (x : Press) (e : Spec) (t : Nat) : Press :=
  let stop := t + e.beats
  { x with
    slotFree := if e.engine then mset 0 x.slotFree e.slot.code stop else x.slotFree
    laneFree := e.lanes.foldl (fun m l => mset 0 m l stop) x.laneFree
    bankFree := match e.bank with
      | some b => mset 0 x.bankFree b stop
      | none => x.bankFree
    yReader := match e.tile with
      | some (y, .reads) => mset 0 x.yReader y (max (mget 0 x.yReader y) stop)
      | _ => x.yReader
    yWriter := match e.tile with
      | some (y, .writes) => mset 0 x.yWriter y stop
      | _ => x.yWriter }

/-- The instruction takes its resources and, unless nullified, has its effect (R305). -/
def State.perform (s : State) (e : Spec) (c : PCtx) (guard : Bool) : State :=
  let t := s.updPress s.press (fun x => x.reserve e c.t)
  if guard then e.eff c t else t

/-- Context of an instruction that issues now. -/
def Press.now (x : Press) : PCtx :=
  { x := x, t := x.beat, nfmt := x.nfmtAt x.atBundle, sreg := x.sreg, th := fun i => (mget 0 x.th i).toNat }

/-- The press with the tile register that the instruction names left out of sight. -/
def Press.without (x : Press) : Option (Nat × TileUse) → Press
  | some (y, _) => x.setTile y {}
  | none => x

/-- A tile register that the instruction names is invalid (R308). -/
def Press.tileProblem (x : Press) : Option (Nat × TileUse) → List Problem
  | some (y, _) => if (x.tileReg y).v then [] else [(6, [y])]
  | none => []

/-- Lane groups and the bank are not free (R299, R300). -/
def Press.busyProblems (x : Press) (e : Spec) (t : Nat) : List Problem :=
  (if e.lanes.all (fun l => freeAt x.laneFree l t) then [] else [(3, [0])])
    ++ (match e.bank with
        | some b => if freeAt x.bankFree b t then [] else [(3, [b])]
        | none => [])

/-- SP that an ASTORE.W latches (R309, R345). -/
def heldSp (x : Press) : HeldOp → W32
  | .astoreW _ _ _ sp => x.sreg sp
  | _ => 0

/-- The held record of an instruction (R309). -/
def Press.hold (x : Press) (i : HeldOp) (e : Spec) (k : Nat) : Press :=
  let rec_ : Held :=
      { instr := i, guard := x.creg e.guard, nfmt := w32 (x.nfmtAt x.atBundle), sp := heldSp x i,
        th := (List.range 5).map (fun j => mget 0 x.th (j + 1)), fpc := x.atFpc, bundle := x.atBundle, ticket := k }
  { x with held := mins (merase x.held e.slot.code) e.slot.code rec_ }

/-- An instruction of the group that issues (R305 to R309), `i` if it can be held; the fault that the check of the group found is
raised instead (R321). Of an instruction that is held, what can be checked without its tile is checked at issue too (R309, R312), and a slot that is
still busy there is the schedule fault of R306 (log entry 101). -/
def State.issuing (s : State) (i : Option HeldOp) (e : Spec) : Out :=
  let p := s.press
  let x := s.pr
  let c := x.now
  match x.found with
  | some f => .next (s.raise p f)
  | none =>
    let tileBad := x.tileProblem e.tile
    let regWaits := tileBad.isEmpty && x.tileWaits c.t e.tile
    let waits := regWaits || (tileBad.isEmpty && s.pushWaits p 0 e.push)
    let busy : List Problem := if e.engine && !freeAt x.slotFree e.slot.code c.t then [(3, [0])] else []
    let checks := if waits then e.check { c with x := x.without e.tile } else x.busyProblems e c.t ++ e.check c
    match leastProblem (busy ++ tileBad ++ checks) with
    | some (code, args) =>
      let a := s.pickArg args
      .next (a.2.raise p ⟨code, if code ≤ 2 then 0 else e.slot.code, false, 0, false, a.1, x.atFpc⟩)
    | none =>
      match (if waits then i else none) with
      | some h =>
        let k := if regWaits || e.push.isNone then 0 else waitKey x.cycle (1 + p % 2)
        .next (s.updPress p (fun x => x.hold h e k))
      | none => .next (s.perform e c (x.creg e.guard))

end Sys2Proof.Machine
end

