-- ==== Sys2Proof/Machine/PressA.lean ====
section
/-! DEFINITION. The A slot: accumulator access (R339 to R345). -/
namespace Sys2Proof.Machine

/-- Names of the eight registers of a row (R339, R341). -/
def rowRegs (v8 : BitVec 3) : List Nat := (List.range 8).map (fun q => 8 * v8.toNat + q)

/-- A row from eight registers, in the lane order of R341. -/
def Press.regRow (x : Press) (v8 : BitVec 3) : BitVec 8192 :=
  BitVec.ofNat 8192 (packBits 1024 ((rowRegs v8).map (fun i => (x.vreg i).toNat)))

/-- A row into eight registers with a domain tag. -/
def Press.rowOut (x : Press) (v8 : BitVec 3) (row : BitVec 8192) (haar : Bool) : List PWrite :=
  (rowRegs v8).zipIdx.map (fun e => .v (x.phys e.1) (row.extractLsb' (1024 * e.2) 1024) haar)

/-- The sum of two rows, element by element with RNE. -/
def addRows (a b : BitVec 8192) : BitVec 8192 × W32 := rowOf256 (fun n => addR (rowElem a n, 0) (rowElem b n, 0))

/-- AZERO (R340). -/
def azeroSpec (g : BitVec 4) (bank : BitVec 3) (tag : BitVec 4) : Spec :=
  { slot := .a, guard := g, beats := 1, bank := some bank.toNat
    check := fun _ => if 2 ≤ tag.toNat then [(4, [bank.toNat])] else []
    eff := fun c s => s.later (c.t + 1) ((List.range 32).map (fun r => .row bank.toNat r 0) ++ [.tag bank.toNat tag.toNat]) }
/-- AZERO. -/
def execAzero (g : BitVec 4) (bank : BitVec 3) (tag : BitVec 4) (s : State) : Out := s.issuing none (azeroSpec g bank tag)

/-- A row of a bank as AREAD delivers it: unwound if the bank is HAAR (R341). -/
def Press.readRow (x : Press) (b r : Nat) (haar : Bool) : BitVec 8192 × W32 :=
  if haar then unwindRow (x.row b) r else (x.row b r, 0)

/-- AREAD (R341). -/
def areadSpec (g : BitVec 4) (bank : BitVec 3) (row : BitVec 5) (v8 : BitVec 3) (haar : Bool) : Spec :=
  let n := if haar then 7 else 2
  { slot := .a, guard := g, beats := n, bank := some bank.toNat
    check := fun c => if c.x.tagOf bank.toNat ≠ b2n haar then [(4, [bank.toNat])] else []
    eff := fun c s =>
      let r := c.x.readRow bank.toNat row.toNat haar
      (s.later (c.t + n) (c.x.rowOut v8 r.1 false)).commits (c.t + n) { flags := r.2 } }
/-- AREAD. -/
def execAread (g : BitVec 4) (bank : BitVec 3) (row : BitVec 5) (v8 : BitVec 3) (haar : Bool) (s : State) : Out :=
  s.issuing none (areadSpec g bank row v8 haar)

/-- AREAD.C (R341). -/
def areadCSpec (g : BitVec 4) (bank : BitVec 3) (row : BitVec 5) (v8 : BitVec 3) : Spec :=
  { slot := .a, guard := g, beats := 2, bank := some bank.toNat, check := fun _ => []
    eff := fun c s => s.later (c.t + 2) (c.x.rowOut v8 (c.x.row bank.toNat row.toNat) (decide (c.x.tagOf bank.toNat = 1))) }
/-- AREAD.C. -/
def execAreadC (g : BitVec 4) (bank : BitVec 3) (row : BitVec 5) (v8 : BitVec 3) (s : State) : Out :=
  s.issuing none (areadCSpec g bank row v8)

/-- AWRITE (R342). -/
def awriteSpec (g : BitVec 4) (bank : BitVec 3) (row : BitVec 5) (v8 : BitVec 3) (acc : Bool) : Spec :=
  let b := bank.toNat
  { slot := .a, guard := g, beats := 2, bank := some b
    check := fun c =>
      let tags := (rowRegs v8).map c.x.vHaar
      let want := if acc then decide (c.x.tagOf b = 1) else c.x.vHaar (8 * v8.toNat)
      if tags.all (fun h => h == want) then [] else [(4, [b])]
    eff := fun c s =>
      let src := c.x.regRow v8
      if acc then
        let r := addRows (c.x.row b row.toNat) src
        (s.later (c.t + 2) [.row b row.toNat r.1]).commits (c.t + 2) { flags := r.2 }
      else s.later (c.t + 2) [.row b row.toNat src, .tag b (b2n (c.x.vHaar (8 * v8.toNat)))] }
/-- AWRITE. -/
def execAwrite (g : BitVec 4) (bank : BitVec 3) (row : BitVec 5) (v8 : BitVec 3) (acc : Bool) (s : State) : Out :=
  s.issuing none (awriteSpec g bank row v8 acc)

/-- Rows that ABIAS changes (R343). -/
def biasRows (haar : Bool) (row0 n : Nat) : List Nat :=
  if haar then (if row0 = 0 then [0] else []) else (List.range n).map (fun i => row0 + i)

/-- ABIAS (R343). -/
def abiasSpec (g : BitVec 4) (bank : BitVec 3) (row0 : BitVec 5) (v8 : BitVec 3) (n1 : BitVec 5) : Spec :=
  let b := bank.toNat
  let n := n1.toNat + 1
  { slot := .a, guard := g, beats := 2 * n, bank := some b, check := fun _ => []
    eff := fun c s =>
      let rs := (biasRows (decide (c.x.tagOf b = 1)) row0.toNat n).map (fun r => (r, addRows (c.x.row b r) (c.x.regRow v8)))
      (s.later (c.t + 2 * n) (rs.map (fun e => .row b e.1 e.2.1))).commits (c.t + 2 * n)
        { flags := rs.foldl (fun f e => f ||| e.2.2) 0 } }
/-- ABIAS. -/
def execAbias (g : BitVec 4) (bank : BitVec 3) (row0 : BitVec 5) (v8 : BitVec 3) (n1 : BitVec 5) (s : State) : Out :=
  s.issuing none (abiasSpec g bank row0 v8 n1)

/-- Rows as they enter a tile: their bytes, and what the conversions and steps before changed (R344). -/
def storedRows (y : TileReg) (nfmt : Nat) (rows : List (BitVec 8192 × W32)) : List (List Byte) × Conv :=
  let rs := rows.map (fun x => (tileRowOf y.fmt.toNat nfmt y.pitch x.1, x.2))
  (rs.map (fun r => r.1.1), rs.foldl (fun c r => c.join (r.1.2.join { flags := r.2 })) {})

/-- ASTORE (R344). -/
def astoreSpec (g : BitVec 4) (bank : BitVec 3) (yk : BitVec 3) (row0 n1 : BitVec 5) (haar : Bool) : Spec :=
  let b := bank.toNat
  let n := n1.toNat + 1
  let beats := 2 * n + if haar then 5 else 0
  { slot := .a, guard := g, beats := beats, bank := some b, tile := some (yk.toNat, .writes)
    check := fun c =>
      let y := c.x.tileReg yk.toNat
      (if c.x.tagOf b ≠ b2n haar ∨ (y.v && y.haar) then [(4, [b, yk.toNat])] else [])
        ++ (if y.v ∧ y.fmt = 6 then [(5, [yk.toNat])] else [])
    eff := fun c s =>
      let y := c.x.tileReg yk.toNat
      let m := min n y.rows
      let r := storedRows y c.nfmt ((List.range m).map (fun i => c.x.readRow b (row0.toNat + i) haar))
      let mask := BitVec.ofNat 64 (2 ^ m - 1)
      (s.later (c.t + beats) [.tile yk.toNat y.handle (r.1.zipIdx.map (fun e => (e.2, e.1))) mask none]).commits
        (c.t + beats) r.2 }
/-- ASTORE. -/
def execAstore (g : BitVec 4) (bank : BitVec 3) (y : BitVec 3) (row0 n1 : BitVec 5) (haar : Bool) (s : State) : Out :=
  s.issuing (some (.astore g bank y row0 n1 haar)) (astoreSpec g bank y row0 n1 haar)

/-- ASTORE.W (R345). -/
def astoreWSpec (g : BitVec 4) (bank : BitVec 3) (yk : BitVec 3) (sp : BitVec 5) : Spec :=
  let b := bank.toNat
  { slot := .a, guard := g, beats := 72, bank := some b, tile := some (yk.toNat, .writes)
    check := fun c =>
      let y := c.x.tileReg yk.toNat
      (if y.v ∧ !y.haar then [(4, [yk.toNat])] else []) ++ (if y.v ∧ y.fmt = 6 then [(5, [yk.toNat])] else [])
    eff := fun c s =>
      let y := c.x.tileReg yk.toNat
      let cs := coefficientRows (c.x.row b) (decide (c.x.tagOf b = 0)) c.th
      let kept := ((cs.1.zipIdx.filter (fun e => rowSurvives e.1))).take y.rows
      let r := storedRows y c.nfmt (kept.map (fun e => (e.1, 0)))
      let pos0 := BitVec.ofNat 24 (nf (c.sreg sp).toNat 5 19 * 32)
      (s.later (c.t + 72)
        [.tile yk.toNat y.handle (r.1.zipIdx.map (fun e => (e.2, e.1))) (BitVec.ofNat 64 (2 ^ kept.length - 1))
          (some (kept.map (·.2), pos0)), .dropped b (32 - kept.length)]).commits (c.t + 72) (r.2.join { flags := cs.2 }) }
/-- ASTORE.W. -/
def execAstoreW (g : BitVec 4) (bank : BitVec 3) (y : BitVec 3) (sp : BitVec 5) (s : State) : Out :=
  s.issuing (some (.astoreW g bank y sp)) (astoreWSpec g bank y sp)

end Sys2Proof.Machine
end

