-- ==== Sys2Proof/Machine/PressM.lean ====
section
/-! DEFINITION. The M and C slots: matrix products (R338), loading, exchange and scales of planes (R354, R355). -/
namespace Sys2Proof.Machine

/-! ### Tile rows and planes -/

/-- Key of row `r` of the tile in a register (R27, R338). -/
def TileReg.rowKey (y : TileReg) (r : Nat) : Nat := let h := tileRef y.handle; bufBase h.cl h.b + r * 64 * y.pitch

/-- The row is valid in the snapshot. -/
def TileReg.hasRow (y : TileReg) (r : Nat) : Bool := decide (r < y.rows) && y.vmask.getLsbD r

/-- The first `n` elements of a tile row of format `f`; those beyond the row's bytes are zero (R338, R354). -/
def State.tileRowBits (s : State) (y : TileReg) (f r n : Nat) : Nat :=
  s.numAt (y.rowKey r) (min (64 * y.pitch) ((n * fmtBits f + 7) / 8))

/-- Bytes of such a read, for errors. -/
def TileReg.rowLen (y : TileReg) (f n : Nat) : Nat := min (64 * y.pitch) ((n * fmtBits f + 7) / 8)

/-- The code of the value zero: a TS8 byte of zero has no term (R96). -/
def zeroCode (f : Nat) : Nat := if f = 6 then 0x77 else 0

/-- Element `n` of plane row `k`; rows at and above KEXT are zero (R295, R338). -/
def Plane.elem (q : Plane) (k n : Nat) : Nat :=
  if q.kext ≤ k then zeroCode q.rfmt.toNat else nf (mget 0 q.rows k).toNat (16 * n) 16

/-! ### MMA and MMAK (R337, R338) -/

/-- The row added by one pass, and its flags: `a` is the tile row as a number. -/
def mmaRow (af kx koff : Nat) (q : Plane) (a : Nat) (old : BitVec 8192) : BitVec 8192 × W32 :=
  rowOf256 (fun n => addR (rowElem old n, 0)
    (passSum af q.rfmt.toNat kx (nf q.scales.toNat (32 * (n / 32)) 32) (element af a) (fun k => q.elem (koff + k) n)))

/-- The bank row that tile row `r`, the `i`-th of the instruction, adds to. -/
def mmaTarget (x : MOp) (y : TileReg) (i : Nat) : Nat :=
  if y.haar then (mget 0 y.rmap (x.trow.toNat + i)).toNat else x.brow.toNat + i

/-- The first plane row of a pass that is in error, as its key (R321). -/
def State.planeError (s : State) (n : Nat) (p : Press) (x : MOp) : Option Nat :=
  (((List.range (x.kx1.toNat + 1)).map (fun k => x.koff.toNat + k)).find? (fun k =>
    decide (k < (p.plane p.activeP).kext) && s.bad (planeKey n p.activeP k) 512)).map (planeKey n p.activeP)

/-- A bank row with a new value. -/
def Press.putRow (x : Press) (b r : Nat) (v : BitVec 8192) : Press := x.applyWrite (.row b r v)

/-- Rows from the `i`-th on: bank rows with their new values, one row after the other, flags, and the first row in error with its
key; `pe` is a plane row in error. -/
def State.mmaRows (s : State) (x : MOp) (af : Nat) (y : TileReg) (pe : Option Nat) :
    Press → List Nat → List (Nat × BitVec 8192) × W32 × Option (Nat × Nat)
  | _, [] => ([], 0, none)
  | p, i :: rest =>
    let r := x.trow.toNat + i
    if !y.hasRow r then s.mmaRows x af y pe p rest
    else if s.bad (y.rowKey r) (y.rowLen af (x.kx1.toNat + 1)) then ([], 0, some (i, y.rowKey r))
    else match pe with
    | some key => ([], 0, some (i, key))
    | none =>
      let v := mmaRow af (x.kx1.toNat + 1) x.koff.toNat (p.plane p.activeP) (s.tileRowBits y af r (x.kx1.toNat + 1))
        (p.row x.bank.toNat (mmaTarget x y i))
      let more := s.mmaRows x af y pe (p.putRow x.bank.toNat (mmaTarget x y i) v.1) rest
      ((mmaTarget x y i, v.1) :: more.1, v.2 ||| more.2.1, more.2.2)

/-- The AW bit fits AFMT. -/
def awFits (aw : Bool) (af : Nat) : Bool := aw == (decide (af = 4) || decide (af = 5))

/-- MMA and MMAK (R338). An invalid register holds no snapshot: of what the checks read there, none is a cause (R308). -/
def mmaSpec (x : MOp) : Spec :=
  { slot := .m, guard := x.guard, beats := x.beats, bank := some x.bank.toNat, tile := some (x.yt.toNat, .reads)
    check := fun c =>
      let y := c.x.tileReg x.yt.toNat
      let q := c.x.plane c.x.activeP
      let af := nf c.nfmt 0 3
      (if y.v ∧ c.x.tagOf x.bank.toNat ≠ b2n y.haar then [(4, [x.bank.toNat, x.yt.toNat])] else [])
        ++ (if (y.v ∧ y.fmt.toNat ≠ af) ∨ !awFits x.aw af ∨ !pairOk af q.rfmt.toNat then [(5, [x.yt.toNat, c.x.activeP])] else [])
    eff := fun c s =>
      let y := c.x.tileReg x.yt.toNat
      let af := nf c.nfmt 0 3
      let m := s.mmaRows x af y (s.planeError s.press c.x x) c.x (List.range x.rows)
      let rows := m.1.map (fun e => PWrite.row x.bank.toNat e.1 e.2)
      match m.2.2 with
      | none => (s.later (c.t + x.beats) rows).commits (c.t + x.beats) { flags := m.2.1 }
      | some (i, key) =>
        let a := s.pickArg ([x.yt.toNat, x.bank.toNat] ++ if 2 ^ 61 ≤ key then [c.x.activeP] else [])
        a.2.later (c.t + (i + 1) * (x.beats / x.rows)) (rows ++ [.part ⟨7, 0, false, 0, true, a.1, c.x.atFpc⟩ key]) }

/-- MMA. -/
def execMma (x : MOp) (s : State) : Out := s.issuing (some (.mma x)) (mmaSpec x)
/-- MMAK. -/
def execMmak (x : MOp) (s : State) : Out := s.issuing (some (.mmak x)) (mmaSpec x)

/-! ### BLOAD (R296, R354) -/

/-- BW that a format needs. -/
def bwOf (f : Nat) : Nat := if f = 1 then 0 else if f = 4 ∨ f = 5 then 2 else 1

/-- A plane row of 256 equal elements. -/
def rowFull (code : Nat) : BitVec 4096 := BitVec.ofNat 4096 (packBits 16 (List.replicate 256 code))

/-- The plane after a load with K0 = 0 has begun: every row zero (R354). -/
def Plane.cleared (f : Nat) : Plane :=
  { rows := if f = 6 then (List.range 256).map (fun k => (k, rowFull 0x77)) else []
    rfmt := BitVec.ofNat 3 f, scales := BitVec.ofNat 256 (packBits 32 (List.replicate 8 0x3F800000)) }

/-- Plane row from tile row `j`; zero where the tile has none (R354). -/
def State.loadRow (s : State) (y : TileReg) (f j : Nat) : BitVec 4096 :=
  if !y.hasRow j then rowFull (zeroCode f)
  else
    let v := s.tileRowBits y f j 256
    BitVec.ofNat 4096 (packBits 16 ((List.range 256).map (fun n =>
      if 512 * y.pitch < fmtBits f * (n + 1) then zeroCode f else element f v n)))

/-- Row `j` of the load meets an error. -/
def State.loadBad (s : State) (y : TileReg) (f j : Nat) : Bool := y.hasRow j && s.bad (y.rowKey j) (y.rowLen f 256)

/-- BLOAD (R354). A memory error leaves the rows, and the record as it was before (R322; log entry 88). -/
def bloadSpec (g : BitVec 4) (yk : BitVec 3) (pl : BitVec 1) (k0 : BitVec 5) (n1 : BitVec 6) (bw : BitVec 2) : Spec :=
  let n := n1.toNat + 1
  let beats := (n * bloadRowBytes bw + 511) / 512
  { slot := .c, guard := g, beats := beats, tile := some (yk.toNat, .reads)
    check := fun c =>
      let y := c.x.tileReg yk.toNat
      let f := nf c.nfmt 4 3
      (if c.x.activeP = pl.toNat then [(2, [pl.toNat])] else [])
        ++ (if bw.toNat ≠ bwOf f ∨ (y.v ∧ y.fmt.toNat ≠ f) ∨ (k0 ≠ 0 ∧ (c.x.plane pl.toNat).rfmt.toNat ≠ f)
            then [(5, [yk.toNat, pl.toNat])] else [])
    eff := fun c s =>
      let y := c.x.tileReg yk.toNat
      let f := nf c.nfmt 4 3
      let p := pl.toNat
      let old := c.x.plane p
      let s1 := (if k0 = 0 then s.cleanRows s.press p 0 256 else s).updPress s.press (fun x =>
        let q := if k0 = 0 then Plane.cleared f else x.plane p
        x.setPlane p { q with loading := true })
      let row := fun j => PWrite.planeRow p (8 * k0.toNat + j) (s.loadRow y f j)
      match (List.range n).find? (s.loadBad y f) with
      | none => s1.later (c.t + beats) ((List.range n).map row ++ [.planeEnd p (8 * k0.toNat + n)])
      | some j =>
        let a := s1.pickArg [yk.toNat, p]
        a.2.later (c.t + min beats ((j + 1) * bloadRowBytes bw / 512 + 1))
          ((List.range j).map row ++ [.planeStop p old.rfmt old.valid old.kext old.scales, .part ⟨7, 4, false, 0, true, a.1, c.x.atFpc⟩ (y.rowKey j)]) }

/-- BLOAD. -/
def execBload (g : BitVec 4) (y : BitVec 3) (pl : BitVec 1) (k0 : BitVec 5) (n1 : BitVec 6) (bw : BitVec 2) (s : State) : Out :=
  s.issuing (some (.bload g y pl k0 n1 bw)) (bloadSpec g y pl k0 n1 bw)

/-! ### BSWAPP and BSCL (R296, R355) -/

/-- BSWAPP. -/
def bswappSpec (g : BitVec 4) : Spec :=
  { slot := .c, guard := g, beats := 1
    check := fun c =>
      if (c.x.plane 0).loading || (c.x.plane 1).loading || !freeAt c.x.slotFree 0 c.t then [(3, [0, 1])] else []
    eff := fun c s => s.later (c.t + 1) [.swap] }
/-- BSWAPP. -/
def execBswapp (g : BitVec 4) (s : State) : Out := s.issuing none (bswappSpec g)

/-- BSCL: lanes 0 to 7 become the scales. -/
def bsclSpec (g : BitVec 4) (pl : BitVec 1) (vs : BitVec 6) : Spec :=
  { slot := .c, guard := g, beats := 1
    check := fun c => if c.x.activeP = pl.toNat then [(2, [pl.toNat])] else []
    eff := fun c s => s.later (c.t + 1) [.scales pl.toNat ((c.x.vreg vs.toNat).truncate 256)] }
/-- BSCL. -/
def execBscl (g : BitVec 4) (pl : BitVec 1) (vs : BitVec 6) (s : State) : Out := s.issuing none (bsclSpec g pl vs)

end Sys2Proof.Machine
end

