-- ==== Sys2Proof/Machine/PressQ.lean ====
section
/-! DEFINITION. The Q slot: tiles in and out of the press (R308, R356 to R358). -/
namespace Sys2Proof.Machine

/-- The tile register that takes a tile, with its snapshot (R308). -/
def State.snapshot (s : State) (h : W32) (rdy : Bool) : TileReg :=
  let r := tileRef h
  let b := s.buf r.cl r.b
  { v := true, rdy := rdy, handle := h, fmt := b.fmt, haar := b.haar, rows := b.rows, pitch := b.pitch, vmask := b.vmask,
    pos := b.pos, rmap := b.rmap }

/-- Register `y` of press `p` takes the oldest entry of queue `q`: the acquire of R31; the tile goes HELD, and RDY is set two
beats later, at once in a press that runs no beats (R308). -/
def State.takeTile (s : State) (p y q : Nat) : State :=
  let x := s.pressAt p
  match x.queueOf q with
  | [] => s
  | (h, _) :: rest =>
    let r := tileRef h
    let runs := decide (x.st = .run) || decide (x.st = .stopping)
    let x1 := (x.setQueue q rest).setTile y (s.snapshot h (!runs))
    let x2 := if runs then { x1 with pend := x1.pend ++ [(x.beat + 2, .rdy y)] } else x1
    (s.setPress p x2).setBuf r.cl r.b { s.buf r.cl r.b with state := .held, holder := some p }

/-- Registers armed on a queue: the order of arming, and the register. -/
def Press.armed (x : Press) (q : Nat) : List (Nat × Nat) :=
  x.y.filterMap (fun e => if e.2.v && e.2.arm && decide (e.2.armq = q) then some (e.2.armSeq, e.1) else none)

/-- QPOP (R308). -/
def qpopSpec (g : BitVec 4) (y : BitVec 3) (q : BitVec 2) : Spec :=
  { slot := .q, guard := g, beats := 1
    check := fun c => if (c.x.tileReg y.toNat).v then [(6, [y.toNat])] else []
    eff := fun c s =>
      if !(c.x.queueOf q.toNat).isEmpty && (c.x.armed q.toNat).isEmpty then s.takeTile s.press y.toNat q.toNat
      else s.updPress s.press (fun x =>
        { x.setTile y.toNat { v := true, arm := true, armq := q.toNat, armSeq := x.armSeq + 1 } with armSeq := x.armSeq + 1 }) }
/-- QPOP. -/
def execQpop (g : BitVec 4) (y : BitVec 3) (q : BitVec 2) (s : State) : Out :=
  s.issuing none (qpopSpec g y q)

/-- The tile of a register is released if its generation is still current (R28, R308). -/
def State.releaseTile (s : State) (h : W32) : State :=
  let r := tileRef h
  if (s.buf r.cl r.b).gen = r.gen then s.freeTile r.cl r.b else s

/-- A tile register is invalid from the next beat on (R308, R333). -/
def State.clearTile (s : State) (t y : Nat) : State := s.later (t + 1) [.gone y]

/-- QREL (R308, R357). -/
def qrelSpec (g : BitVec 4) (y : BitVec 3) : Spec :=
  { slot := .q, guard := g, beats := 1, tile := some (y.toNat, .gives), check := fun _ => []
    eff := fun c s => (s.releaseTile (c.x.tileReg y.toNat).handle).clearTile c.t y.toNat }
/-- QREL. -/
def execQrel (g : BitVec 4) (y : BitVec 3) (s : State) : Out := s.issuing (some (.qrel g y)) (qrelSpec g y)

/-- QPUSH of the U form, at the press `p` (R358). -/
def qpushSpec (g : BitVec 4) (y : BitVec 3) (u : BitVec 1) (q : BitVec 2) : Spec :=
  { slot := .q, guard := g, beats := 1, tile := some (y.toNat, .gives), push := some (.queue u.toNat q.toNat)
    check := fun _ => []
    eff := fun c s =>
      let h := (c.x.tileReg y.toNat).handle
      let r := tileRef h
      let s1 := s.clearTile c.t y.toNat
      let cl := pressCluster s.press
      if (s.buf r.cl r.b).gen = r.gen then
        (s1.enqueue cl u.toNat q.toNat h true).tell (pressUnit s.press) (pressUnit (pressNo cl u.toNat))
      else s1 }
/-- QPUSH. -/
def execQpush (g : BitVec 4) (y : BitVec 3) (u : BitVec 1) (q : BitVec 2) (s : State) : Out :=
  s.issuing (some (.qpush g y u q)) (qpushSpec g y u q)

/-- QPUSH of the E form (R358): the event queue of a core of press `p`'s cluster. -/
def qpushESpec (p : Nat) (g : BitVec 4) (y : BitVec 3) (core : BitVec 4) (eq : BitVec 2) : Spec :=
  let u := 16 * pressCluster p + core.toNat
  { slot := .q, guard := g, beats := 1, tile := some (y.toNat, .gives), push := some (.event u eq.toNat)
    check := fun _ => []
    eff := fun c s =>
      let w := w64 ((c.x.tileReg y.toNat).handle.toNat + p % 2 * 2 ^ 32)
      ((s.postEq u eq.toNat w .cluster).getD s).tell (pressUnit p) u }
/-- QPUSH.E. -/
def execQpushE (g : BitVec 4) (y : BitVec 3) (core : BitVec 4) (eq : BitVec 2) (s : State) : Out :=
  s.issuing (some (.qpushE g y core eq)) (qpushESpec s.press g y core eq)

/-! ### Events -/

/-- The entry of least order. -/
def firstArmed (l : List (Nat × Nat)) : Option Nat := (leastTicket l).map (·.2)

/-- QPOP_ARMED_TAKE: an entry has entered a queue, and the register armed earliest takes it (R308, R327). -/
def execQpopArmedTake (p q : Nat) (s : State) : Out :=
  match firstArmed ((s.pressAt p).armed q) with
  | none => .next s
  | some y => .next (s.takeTile p y q)

end Sys2Proof.Machine
end

