-- ==== Sys2Proof/Machine/PressS.lean ====
section
/-! DEFINITION. The S and B slots: scalars, predicates, press registers, branches, loops and the stop (R359 to R365). -/
namespace Sys2Proof.Machine

/-- An S instruction: it writes at t + 1 (R359). -/
def sSpec (g : BitVec 4) (eff : PCtx → List PWrite × Conv) : Spec :=
  { slot := .s, guard := g, beats := 1, check := fun _ => []
    eff := fun c s => (s.later (c.t + 1) (eff c).1).commits (c.t + 1) (eff c).2 }

/-! ### Integers (R360) -/

/-- An S instruction with an s result of one or two s operands. -/
def sBin (g : BitVec 4) (sd sa sb : BitVec 5) (f : W32 → W32 → W32) : Spec :=
  sSpec g (fun c => ([.s sd.toNat (f (c.sreg sa) (c.sreg sb))], {}))
def sUn (g : BitVec 4) (sd sa : BitVec 5) (f : W32 → W32) : Spec :=
  sSpec g (fun c => ([.s sd.toNat (f (c.sreg sa))], {}))

/-- The signed and unsigned smaller and larger of two words. -/
def minS (a b : W32) : W32 := if a.toInt ≤ b.toInt then a else b
def maxS (a b : W32) : W32 := if a.toInt ≤ b.toInt then b else a
def minU (a b : W32) : W32 := if a.toNat ≤ b.toNat then a else b
def maxU (a b : W32) : W32 := if a.toNat ≤ b.toNat then b else a

/-- SADD (R360). -/
def execSadd (g : BitVec 4) (sd sa sb : BitVec 5) (s : State) : Out :=
  s.issuing none (sBin g sd sa sb (fun a b => a + b))
/-- SSUB (R360). -/
def execSsub (g : BitVec 4) (sd sa sb : BitVec 5) (s : State) : Out :=
  s.issuing none (sBin g sd sa sb (fun a b => a - b))
/-- SAND (R360). -/
def execSand (g : BitVec 4) (sd sa sb : BitVec 5) (s : State) : Out :=
  s.issuing none (sBin g sd sa sb (fun a b => a &&& b))
/-- SOR (R360). -/
def execSor (g : BitVec 4) (sd sa sb : BitVec 5) (s : State) : Out :=
  s.issuing none (sBin g sd sa sb (fun a b => a ||| b))
/-- SXOR (R360). -/
def execSxor (g : BitVec 4) (sd sa sb : BitVec 5) (s : State) : Out :=
  s.issuing none (sBin g sd sa sb (fun a b => a ^^^ b))
/-- SSHL (R360). -/
def execSshl (g : BitVec 4) (sd sa sb : BitVec 5) (s : State) : Out :=
  s.issuing none (sBin g sd sa sb (fun a b => a <<< (b.toNat % 32)))
/-- SSHR (R360). -/
def execSshr (g : BitVec 4) (sd sa sb : BitVec 5) (s : State) : Out :=
  s.issuing none (sBin g sd sa sb (fun a b => a >>> (b.toNat % 32)))
/-- SSRA (R360). -/
def execSsra (g : BitVec 4) (sd sa sb : BitVec 5) (s : State) : Out :=
  s.issuing none (sBin g sd sa sb (fun a b => a.sshiftRight (b.toNat % 32)))
/-- SMUL (R360). -/
def execSmul (g : BitVec 4) (sd sa sb : BitVec 5) (s : State) : Out :=
  s.issuing none (sBin g sd sa sb (fun a b => a * b))
/-- SMIN (R360). -/
def execSmin (g : BitVec 4) (sd sa sb : BitVec 5) (s : State) : Out :=
  s.issuing none (sBin g sd sa sb minS)
/-- SMAX (R360). -/
def execSmax (g : BitVec 4) (sd sa sb : BitVec 5) (s : State) : Out :=
  s.issuing none (sBin g sd sa sb maxS)
/-- SMINU (R360). -/
def execSminu (g : BitVec 4) (sd sa sb : BitVec 5) (s : State) : Out :=
  s.issuing none (sBin g sd sa sb minU)
/-- SMAXU (R360). -/
def execSmaxu (g : BitVec 4) (sd sa sb : BitVec 5) (s : State) : Out :=
  s.issuing none (sBin g sd sa sb maxU)
/-- SADDI: a sign-extended immediate (R360). -/
def execSaddi (g : BitVec 4) (sd sa : BitVec 5) (e : BitVec 14) (s : State) : Out :=
  s.issuing none (sUn g sd sa (fun a => a + e.signExtend 32))
/-- SMOVI (R360). -/
def execSmovi (g : BitVec 4) (sd : BitVec 5) (e : BitVec 19) (s : State) : Out :=
  s.issuing none (sSpec g (fun _ => ([.s sd.toNat (e.signExtend 32)], {})))
/-- SMOVH: the upper half, the lower half kept (R360). -/
def execSmovh (g : BitVec 4) (sd : BitVec 5) (e : BitVec 16) (s : State) : Out :=
  s.issuing none (sUn g sd sd (fun a => (e.zeroExtend 32 <<< 16) ||| (a &&& 0xFFFF#32)))

/-! ### Predicates (R361) -/

/-- COND of a compare. -/
def condHolds (k : BitVec 3) (a b : W32) : Bool :=
  match k.toNat with
  | 0 => a == b
  | 1 => a != b
  | 2 => decide (a.toInt < b.toInt)
  | 3 => decide (b.toInt ≤ a.toInt)
  | 4 => decide (a.toNat < b.toNat)
  | _ => decide (b.toNat ≤ a.toNat)

/-- A compare: the predicate and its complement (R303). -/
def cmpSpec (g cn cm : BitVec 4) (f : PCtx → Bool) : Spec :=
  sSpec g (fun c => ([.c cn.toNat (f c), .c cm.toNat (!f c)], {}))

/-- SCMP (R361). -/
def execScmp (g cn cm : BitVec 4) (sa sb : BitVec 5) (k : BitVec 3) (s : State) : Out :=
  s.issuing none (cmpSpec g cn cm (fun c => condHolds k (c.sreg sa) (c.sreg sb)))
/-- SCMPI (R361). -/
def execScmpi (g cn cm : BitVec 4) (sa : BitVec 5) (k : BitVec 3) (e : BitVec 8) (s : State) : Out :=
  s.issuing none (cmpSpec g cn cm (fun c => condHolds k (c.sreg sa) (e.signExtend 32)))

/-- PLOG. -/
def plogSpec (g cd ca cb : BitVec 4) (f : Bool → Bool → Bool) : Spec :=
  sSpec g (fun c => ([.c cd.toNat (f (c.x.creg ca) (c.x.creg cb))], {}))
/-- PAND (R361). -/
def execPand (g cd ca cb : BitVec 4) (s : State) : Out :=
  s.issuing none (plogSpec g cd ca cb (fun a b => a && b))
/-- POR (R361). -/
def execPor (g cd ca cb : BitVec 4) (s : State) : Out :=
  s.issuing none (plogSpec g cd ca cb (fun a b => a || b))
/-- PXOR (R361). -/
def execPxor (g cd ca cb : BitVec 4) (s : State) : Out :=
  s.issuing none (plogSpec g cd ca cb (fun a b => a != b))
/-- PANDN (R361). -/
def execPandn (g cd ca cb : BitVec 4) (s : State) : Out :=
  s.issuing none (plogSpec g cd ca cb (fun a b => a && !b))

/-! ### Floating point (R362) -/

/-- An FP32 result with its flags. -/
def sfSpec (g : BitVec 4) (sd : BitVec 5) (f : PCtx → FRes) : Spec :=
  sSpec g (fun c => ([.s sd.toNat (w32 (f c).1)], { flags := (f c).2 }))
/-- An s register as a value. -/
def PCtx.fp (c : PCtx) (i : BitVec 5) : Fp := fpOf (c.sreg i).toNat

/-- SFADD (R362). -/
def execSfadd (g : BitVec 4) (sd sa sb : BitVec 5) (s : State) : Out :=
  s.issuing none (sfSpec g sd (fun c => fpAdd 23 0 (c.fp sa) (c.fp sb)))
/-- SFSUB (R362). -/
def execSfsub (g : BitVec 4) (sd sa sb : BitVec 5) (s : State) : Out :=
  s.issuing none (sfSpec g sd (fun c => fpSub 23 0 (c.fp sa) (c.fp sb)))
/-- SFMUL (R362). -/
def execSfmul (g : BitVec 4) (sd sa sb : BitVec 5) (s : State) : Out :=
  s.issuing none (sfSpec g sd (fun c => fpMul 23 0 (c.fp sa) (c.fp sb)))
/-- SFMIN (R362). -/
def execSfmin (g : BitVec 4) (sd sa sb : BitVec 5) (s : State) : Out :=
  s.issuing none (sfSpec g sd (fun c => fpMin (c.sreg sa).toNat (c.sreg sb).toNat false))
/-- SFMAX (R362). -/
def execSfmax (g : BitVec 4) (sd sa sb : BitVec 5) (s : State) : Out :=
  s.issuing none (sfSpec g sd (fun c => fpMin (c.sreg sa).toNat (c.sreg sb).toNat true))
/-- SFRCP (R362). -/
def execSfrcp (g : BitVec 4) (sd sa : BitVec 5) (s : State) : Out :=
  s.issuing none (sfSpec g sd (fun c => fpRcp 23 (c.fp sa)))
/-- SFRSQ (R362). -/
def execSfrsq (g : BitVec 4) (sd sa : BitVec 5) (s : State) : Out :=
  s.issuing none (sfSpec g sd (fun c => fpRsq 23 (c.fp sa)))
/-- SITOF (R362). -/
def execSitof (g : BitVec 4) (sd sa : BitVec 5) (s : State) : Out :=
  s.issuing none (sfSpec g sd (fun c => fpOfInt 23 0 (c.sreg sa).toInt))
/-- SFTOI: to a signed word by RNE, with the table of R211 (R362). -/
def execSftoi (g : BitVec 4) (sd sa : BitVec 5) (s : State) : Out :=
  s.issuing none (sfSpec g sd (fun c =>
    let r := fpToInt 0 (-(2 ^ 31)) (2 ^ 31 - 1) (c.fp sa)
    (wrapN 32 r.1, r.2)))

/-! ### Press registers (R363) -/

/-- What SGET gives. -/
def PCtx.sget (c : PCtx) (sel : Nat) : W32 :=
  if sel = 0 then c.x.amax
  else if sel = 1 then c.x.satc
  else if sel = 2 then c.x.pfs &&& 0x3F#32
  else if sel = 3 then w32 c.nfmt
  else if sel ≤ 8 then w32 (c.th (sel - 3))
  else if sel ≤ 23 then mget 0 c.x.dropc (sel - 16)
  else if sel ≤ 27 then w32 (c.x.queueOf (sel - 24)).length
  else c.x.cyc.truncate 32

/-- SGET (R363). -/
def execSget (g : BitVec 4) (sd : BitVec 5) (sel : BitVec 8) (s : State) : Out :=
  s.issuing none (sSpec g (fun c => ([.s sd.toNat (c.sget sel.toNat)], {})))

/-- SSET: AMAX, SATC and PFS in the update of its own beat (R336), NFMT three bundles later (R313), thresholds at t + 1. -/
def ssetSpec (g : BitVec 4) (sel : BitVec 8) (sa : BitVec 5) : Spec :=
  { slot := .s, guard := g, beats := 1, check := fun _ => []
    eff := fun c s =>
      let v := c.sreg sa
      if sel.toNat = 0 then s.later (c.t + 1) [.setAmax v]
      else if sel.toNat = 1 then s.later (c.t + 1) [.setSatc v]
      else if sel.toNat = 2 then s.later (c.t + 1) [.setPfs v]
      else if sel.toNat = 3 then s.updPress s.press (fun x => { x with nfmtPend := x.nfmtPend ++ [(v, x.atBundle + 3)] })
      else s.later (c.t + 1) [.th (sel.toNat - 3) v] }
/-- SSET (R363). -/
def execSset (g : BitVec 4) (sel : BitVec 8) (sa : BitVec 5) (s : State) : Out :=
  s.issuing none (ssetSpec g sel sa)

/-- SVGET: one 32-bit lane (R363). -/
def execSvget (g : BitVec 4) (sd : BitVec 5) (vs : BitVec 6) (lane : BitVec 5) (s : State) : Out :=
  s.issuing none (sSpec g (fun c => ([.s sd.toNat ((c.x.vreg vs.toNat).extractLsb' (32 * lane.toNat) 32)], {})))

/-! ### B slot (R365) -/

/-- A B instruction. -/
def bSpec (g : BitVec 4) (eff : PCtx → State → State) : Spec :=
  { slot := .b, guard := g, beats := 1, check := fun _ => [], eff := eff }

/-- BR: the target group issues two beats later (R307, R365). -/
def execBr (g : BitVec 4) (tgt : BitVec 14) (s : State) : Out :=
  s.issuing none (bSpec g (fun c s => s.updPress s.press (fun x => { x with pc := 4 * tgt.toNat, nextAt := c.t + 2 })))

/-- RRB after a taken LOOP (R301, R365). -/
def Press.rotated (x : Press) : BitVec 5 := if x.rot = 0 then x.rrb else BitVec.ofNat 5 ((x.rrb.toNat + x.rot - 1) % x.rot)

/-- LOOP: branch and rotation together (R302, R307, R365); a stop after the second pass of R366 finds RRB 6 with v39 written (log
entry 103). -/
def execLoop (g : BitVec 4) (sn : BitVec 5) (tgt : BitVec 14) (s : State) : Out :=
  s.issuing none (bSpec g (fun c s =>
    let v := c.sreg sn - 1
    let s1 := s.later (c.t + 1) [.s sn.toNat v]
    if v = 0 then s1
    else s1.updPress s1.press (fun x => { x with pc := 4 * tgt.toNat, nextAt := c.t + 1, rrb := x.rotated })))

/-- STOP: STOPPING at the boundary after its group (R365). -/
def execStop (g : BitVec 4) (s : State) : Out :=
  s.issuing none (bSpec g (fun _ s => s.updPress s.press (fun x => { x with st := .stopping })))

end Sys2Proof.Machine
end

