-- ==== Sys2Proof/Machine/Transcend.lean ====
section
/-! DEFINITION. 2^x, log2 x, tanh x, x·Φ(x) and the rotation of VROPE, rounded once (R349, R352): enclosures by power series in
fixed point at growing precision, until both ends of an enclosure round alike (log entry 12). -/
namespace Sys2Proof.Machine

/-! ### Enclosures in fixed point with `w` fraction bits -/

/-- A non-negative real between the two numbers, in units of 2^−w. -/
abbrev Enc := Nat × Nat

def mulE (w : Nat) (a b : Enc) : Enc := (a.1 * b.1 / 2 ^ w, a.2 * b.2 / 2 ^ w + 1)
def divE (a : Enc) (d : Nat) : Enc := (a.1 / d, a.2 / d + 1)
/-- Quotient of two enclosures, the divisor positive. -/
def quotE (w : Nat) (a b : Enc) : Enc := (a.1 * 2 ^ w / b.2, a.2 * 2 ^ w / b.1 + 1)
/-- n/d. -/
def ratE (w n d : Nat) : Enc := (n * 2 ^ w / d, n * 2 ^ w / d + 1)
/-- m × 2^e. -/
def dyadicE (w m : Nat) (e : Int) : Enc :=
  let s := e + w
  if 0 ≤ s then (m * 2 ^ s.toNat, m * 2 ^ s.toNat) else (m / 2 ^ (-s).toNat, m / 2 ^ (-s).toNat + 1)

/-- Σ ±p_k / b(k) with p_(k+1) = p_k · u / a(k + 1), for `n` terms from `p_k` on; what is left out is at most 2 p_(k+n). -/
def seriesE (w : Nat) (u : Enc) (a b : Nat → Nat) (alt : Bool) : Nat → Nat → Enc → Int × Int
  | 0, _, p => (if alt then -(2 * p.2 + 2 : Nat) else 0, (2 * p.2 + 2 : Nat))
  | n + 1, k, p =>
    let t := divE p (b k)
    let rest := seriesE w u a b alt n (k + 1) (divE (mulE w p u) (a (k + 1)))
    if alt && decide (k % 2 = 1) then (rest.1 - t.2, rest.2 - t.1) else (rest.1 + t.1, rest.2 + t.2)

/-- The non-negative part of an enclosure. -/
def natE (x : Int × Int) : Enc := (x.1.toNat, x.2.toNat)

/-- exp z for 0 ≤ z ≤ 128. -/
def expE (w : Nat) (z : Enc) : Enc := natE (seriesE w z (fun k => k) (fun _ => 1) false (w + 400) 0 (2 ^ w, 2 ^ w))
/-- artanh t for t² ≤ 1/9. -/
def atanhE (w : Nat) (t : Enc) : Enc := natE (seriesE w (mulE w t t) (fun _ => 1) (fun k => 2 * k + 1) false w 0 t)
/-- arctan 1/n. -/
def atanInvE (w n : Nat) : Enc := natE (seriesE w (ratE w 1 (n * n)) (fun _ => 1) (fun k => 2 * k + 1) true w 0 (ratE w 1 n))

def ln2E (w : Nat) : Enc := let t := atanhE w (ratE w 1 3); (2 * t.1, 2 * t.2)
/-- π = 16 arctan 1/5 − 4 arctan 1/239. -/
def piE (w : Nat) : Enc :=
  let a := atanInvE w 5
  let b := atanInvE w 239
  (16 * a.1 - 4 * b.2, 16 * a.2 - 4 * b.1)

/-- The integer square root of a number below 4^n. -/
def isqrt (v : Nat) : Nat → Nat → Nat
  | 0, r => r
  | n + 1, r => let s := r + 2 ^ n; isqrt v n (if s * s ≤ v then s else r)

/-- 1/√(2π). -/
def invRoot2PiE (w : Nat) : Enc :=
  let p := piE w
  let lo := 2 ^ (3 * w) / (2 * p.2)
  let hi := 2 ^ (3 * w) / (2 * p.1) + 1
  (isqrt lo (w + 1) 0, isqrt hi (w + 1) 0 + 1)

/-- sin z and cos z for 0 ≤ z ≤ 1.6. -/
def sinE (w : Nat) (z : Enc) : Enc := natE (seriesE w (mulE w z z) (fun k => 2 * k * (2 * k + 1)) (fun _ => 1) true w 0 z)
def cosE (w : Nat) (z : Enc) : Enc :=
  natE (seriesE w (mulE w z z) (fun k => 2 * k * (2 * k - 1)) (fun _ => 1) true w 0 (2 ^ w, 2 ^ w))

/-! ### Rounding an enclosure -/

/-- The result for every real strictly between lo − 1 and hi + 1 in units of 2^e, if they all round alike. -/
def roundE (f : Nat) (neg : Bool) (x : Enc) (e : Int) : Option FRes :=
  let a := roundF f 0 neg (2 * x.1 - 1) (e - 1)
  let b := roundF f 0 neg (2 * x.2 + 1) (e - 1)
  if a = b then some a else none

/-- The first precision that decides. -/
def decideAt (g : Nat → Option FRes) : List Nat → Option FRes
  | [] => none
  | w :: ws => match g w with | some r => some r | none => decideAt g ws

def precisions : List Nat := [256, 640, 1536]

/-- A result that the enclosures decide; else the value that the manual fixes, unknown here. -/
def settled (f code operand : Nat) (g : Nat → Option FRes) : FRes :=
  match decideAt g precisions with
  | some r => r
  | none => ((Config.undecided code operand).toNat / 2 ^ (23 - f) * 2 ^ (23 - f), fNX)

/-! ### The functions (R349) -/

/-- floor of m × 2^e. -/
def floorOf (neg : Bool) (m : Nat) (e : Int) : Int :=
  let v : Int := if neg then -(m : Int) else m
  if 0 ≤ e then v * (2 ^ e.toNat : Nat) else v / (2 ^ (-e).toNat : Nat)

/-- ±m × 2^e is an integer. -/
def isInteger (m : Nat) (e : Int) : Bool := decide (0 ≤ e) || decide (m % 2 ^ (-e).toNat = 0)

/-- ⌊|x|⌋ ≥ 2^k for a finite non-zero value. -/
def atLeast (m : Nat) (e : Int) (k : Nat) : Bool := decide ((k : Int) ≤ (Nat.log2 m : Int) + e)

/-- 2^x. -/
def fpExp2 (f word : Nat) : FRes :=
  match fpOf word with
  | .nan s => (cNaN, nvIf s)
  | .inf n => (if n then 0 else infWord false, 0)
  | .fin n m e =>
    if m = 0 then roundF f 0 false 1 0
    else if atLeast m e 9 then roundF f 0 false 1 (if n then -300 else 300)
    else
      let k := floorOf n m e
      if isInteger m e then roundF f 0 false 1 k
      else settled f 1 word (fun w =>
        let frac : Nat := (scaled n m e (-200 + min 0 (e + 200)) - k * (2 ^ (200 - min 0 (e + 200)).toNat : Nat)).toNat
        let x := ratE w frac (2 ^ (200 - min 0 (e + 200)).toNat)
        roundE f false (expE w (mulE w x (ln2E w))) (k - w))

/-- log2 x. -/
def fpLog2 (f word : Nat) : FRes :=
  match fpOf word with
  | .nan s => (cNaN, nvIf s)
  | .inf n => if n then (cNaN, fNV) else (infWord false, 0)
  | .fin n m e =>
    if m = 0 then (infWord true, fDZ)
    else if n then (cNaN, fNV)
    else
      let l := Nat.log2 m
      let k : Int := (l : Int) + e
      if m = 2 ^ l then fpOfInt f 0 k
      else settled f 2 word (fun w =>
        let t := ratE w (m - 2 ^ l) (m + 2 ^ l)
        let a := atanhE w t
        let r := quotE w (2 * a.1, 2 * a.2) (ln2E w)
        let base : Int := k * (2 ^ w : Nat)
        if 0 ≤ k then roundE f false ((base + r.1).toNat, (base + r.2).toNat) (-w)
        else roundE f true ((-(base + r.2)).toNat, (-(base + r.1)).toNat) (-w))

/-- tanh x. -/
def fpTanh (f word : Nat) : FRes :=
  match fpOf word with
  | .nan s => (cNaN, nvIf s)
  | .inf n => (signBit n + 0x3F800000, 0)
  | .fin n m e =>
    if m = 0 then (signBit n, 0)
    else if atLeast m e 6 then (match roundE f n (2 ^ 100 - 2, 2 ^ 100 - 2) (-100) with | some r => r | none => (0, 0))
    else settled f 3 word (fun w =>
      let ex := expE w (dyadicE w m (e + 1))
      let one := 2 ^ w
      roundE f n ((ex.1 - one) * one / (ex.2 + one), (ex.2 - one) * one / (ex.1 + one) + 1) (-w))

/-- x·Φ(x). -/
def fpGelu (f word : Nat) : FRes :=
  match fpOf word with
  | .nan s => (cNaN, nvIf s)
  | .inf n => if n then (signBit true, 0) else (infWord false, 0)
  | .fin n m e =>
    if m = 0 then (signBit n, 0)
    else if atLeast m e 4 then
      if n then roundF f 0 true 1 (-300)
      else (match roundE f false (m * 2 ^ 100 - 2, m * 2 ^ 100 - 2) (e - 100) with | some r => r | none => (0, 0))
    else settled f 4 word (fun w =>
      let x := dyadicE w m e
      let u := divE (mulE w x x) 2
      let s := natE (seriesE w u (fun k => k) (fun k => 2 * k + 1) true (w + 400) 0 x)
      let half := 2 ^ w / 2
      let phi := mulE w s (invRoot2PiE w)
      let p : Enc := if n then (half - phi.2, half - phi.1) else (half + phi.1, half + phi.2)
      roundE f n (m * p.1, m * p.2) (e - w))

/-! ### Rotation (R352) -/

/-- A term x·c of the rotation: the sign and magnitude of x, times an enclosure. -/
structure RopeTerm where
  neg : Bool
  m   : Nat
  e   : Int
  c   : Enc

/-- The sum of two terms, enclosed, rounded once. -/
def ropeSum (w : Nat) (x y : RopeTerm) : Option FRes :=
  let k := min x.e y.e
  let lohi (t : RopeTerm) : Int × Int :=
    let a : Int := (t.m * 2 ^ (t.e - k).toNat * t.c.1 : Nat)
    let b : Int := (t.m * 2 ^ (t.e - k).toNat * t.c.2 : Nat)
    if t.neg then (-b, -a) else (a, b)
  let lo := (lohi x).1 + (lohi y).1
  let hi := (lohi x).2 + (lohi y).2
  if 0 < lo then roundE 23 false (lo.toNat, hi.toNat) (k - w)
  else if hi < 0 then roundE 23 true ((-hi).toNat, (-lo).toNat) (k - w)
  else none

/-- x·c ± y·s for an angle of `r`/2^32 turns, 0 < r < 2^30, in the first quadrant; `cx` says that x takes the cosine. -/
def ropeFirst (r : Nat) (nx : Bool) (mx : Nat) (ex : Int) (cx : Bool) (ny : Bool) (my : Nat) (ey : Int) : FRes :=
  if mx = 0 ∧ my = 0 then (signBit (nx && ny), 0)
  else if r = 2 ^ 29 ∧ nx ≠ ny ∧ scaled false mx ex (min ex ey) = scaled false my ey (min ex ey) then (0, 0)
  else settled 23 5 (r + 2 ^ 30 * (b2n cx + 2 * (b2n nx + 2 * (b2n ny + 2 * (mx + 2 ^ 24 * (my + 2 ^ 24 * ((ex + 200).toNat + 512 * (ey + 200).toNat)))))))
    (fun w =>
      let p := piE w
      let z : Enc := (2 * p.1 * r / 2 ^ 32, 2 * p.2 * r / 2 ^ 32 + 1)
      let c := cosE w z
      let s := sinE w z
      ropeSum w ⟨nx, mx, ex, if cx then c else s⟩ ⟨ny, my, ey, if cx then s else c⟩)

/-- a·cos θ + b·sin θ for θ = t/2^32 turns, the signs of a and b as given; exact at a multiple of a quarter turn. -/
def ropeAny (t : Nat) (a b : Fp) : FRes :=
  let q := t / 2 ^ 30 % 4
  let r := t % 2 ^ 30
  match a, b with
  | .fin na ma ea, .fin nb' mb eb =>
    let nc := decide (q = 1) || decide (q = 2)
    let ns := decide (q = 2) || decide (q = 3)
    if r = 0 then
      -- one of cos θ, sin θ is ±1 and the other counts as +0
      if q % 2 = 0 then sumFin 23 0 (na != nc) ma ea nb' 0 0 else sumFin 23 0 na 0 0 (nb' != ns) mb eb
    else ropeFirst r (na != nc) ma ea (decide (q % 2 = 0)) (nb' != ns) mb eb
  | _, _ => (cNaN, 0)

/-- The two results for a pair (R352). -/
def ropePair (p omega x y : Nat) : FRes × FRes :=
  let a := fpOf x
  let b := fpOf y
  let t := p * omega % 2 ^ 32
  let special (v : Fp) : Bool := match v with | .fin _ _ _ => false | _ => true
  let nv (v : Fp) : Bool := match v with | .inf _ => true | .nan s => s | .fin _ _ _ => false
  if special a || special b then ((cNaN, nvIf (nv a || nv b)), (cNaN, nvIf (nv a || nv b)))
  else (ropeAny t a b.flip, ropeAny t b a)

end Sys2Proof.Machine
end

