-- ==== Sys2Proof/Machine/PressV.lean ====
section
/-! DEFINITION. The V slots: vector instructions (R346 to R352), with the domain classes of R40. -/
namespace Sys2Proof.Machine

/-! ### Lanes (R347) -/

/-- Fraction bits of a lane type, its lanes, and the bits of a lane. -/
def laneF : VTy → Nat | .f32 => 23 | .bf16 => 7
def laneCount : VTy → Nat | .f32 => 32 | .bf16 => 64
def laneBits : VTy → Nat | .f32 => 32 | .bf16 => 16

/-- Lane `l` of a register as an FP32 word (R88, R347). -/
def laneOf (ty : VTy) (v : BitVec 1024) (l : Nat) : Nat :=
  match ty with | .f32 => nf v.toNat (32 * l) 32 | .bf16 => nf v.toNat (16 * l) 16 * 2 ^ 16

/-- A register from its lanes. -/
def ofLanes (ty : VTy) (xs : List Nat) : BitVec 1024 :=
  BitVec.ofNat 1024 (match ty with | .f32 => packBits 32 xs | .bf16 => packBits 16 (xs.map (· / 2 ^ 16)))

/-- A result computed lane by lane, with its flags. -/
def perLane (ty : VTy) (f : Nat → FRes) : BitVec 1024 × Conv :=
  let xs := (List.range (laneCount ty)).map f
  (ofLanes ty (xs.map (·.1)), { flags := flagsOf xs })

/-! ### Domain classes (R40, R348): the tag of the result, none for a domain fault -/

def tagKept (x : VOp) (c : PCtx) : Option Bool := some (c.x.vHaar x.va.toNat)
def tagSame (x : VOp) (c : PCtx) : Option Bool :=
  if c.x.vHaar x.va.toNat = c.x.vHaar x.vb.toNat then some (c.x.vHaar x.va.toNat) else none
def tagMul (x : VOp) (c : PCtx) : Option Bool :=
  if c.x.vHaar x.va.toNat && c.x.vHaar x.vb.toNat then none else some (c.x.vHaar x.va.toNat || c.x.vHaar x.vb.toNat)
def tagFma (x : VOp) (c : PCtx) : Option Bool :=
  (tagMul x c).bind (fun h => if h = c.x.vHaar x.vd.toNat then some h else none)
def tagPlain1 (x : VOp) (c : PCtx) : Option Bool := if c.x.vHaar x.va.toNat then none else some false
def tagPlain2 (x : VOp) (c : PCtx) : Option Bool :=
  if c.x.vHaar x.va.toNat || c.x.vHaar x.vb.toNat then none else some false
def tagNew (_ : VOp) (_ : PCtx) : Option Bool := some false

/-! ### The form of every V instruction -/

/-- Lane groups that a V instruction takes (R300). -/
def vGroups (x : VOp) : List Nat :=
  (List.range x.wid.groups).map (fun i => if x.v1 then 3 - i else i)

/-- A V instruction of factor `f`: beats and latency (R333, R346), domain check, result. -/
def vSpec (x : VOp) (f : Nat) (tag : VOp → PCtx → Option Bool) (res : PCtx → BitVec 1024 × Conv) : Spec :=
  let n := f * 4 / x.wid.groups
  { slot := if x.v1 then .v1 else .v0, guard := x.guard, beats := n, lanes := vGroups x
    check := fun c => if (tag x c).isNone then [(4, [0])] else []
    eff := fun c s =>
      let r := res c
      (s.later (c.t + n + (if f = 2 then 2 else 0)) [.v (c.x.phys x.vd.toNat) r.1 ((tag x c).getD false)]).commits
        (c.t + n) r.2 }

/-- Operands as registers. -/
def opA (x : VOp) (c : PCtx) : BitVec 1024 := c.x.vreg x.va.toNat
def opB (x : VOp) (c : PCtx) : BitVec 1024 := c.x.vreg x.vb.toNat
def opD (x : VOp) (c : PCtx) : BitVec 1024 := c.x.vreg x.vd.toNat
def opS (x : VOp) (c : PCtx) : Nat := (c.sreg x.ss).toNat

/-- One operand per lane. -/
def lanes1 (x : VOp) (g : Nat → FRes) (c : PCtx) : BitVec 1024 × Conv := perLane x.ty (fun l => g (laneOf x.ty (opA x c) l))
/-- Two operands per lane. -/
def lanes2 (x : VOp) (g : Nat → Nat → FRes) (c : PCtx) : BitVec 1024 × Conv :=
  perLane x.ty (fun l => g (laneOf x.ty (opA x c) l) (laneOf x.ty (opB x c) l))

/-! ### Arithmetic (R348) -/

def vaddSpec (x : VOp) : Spec := vSpec x 1 tagSame (lanes2 x (fun a b => fpAdd (laneF x.ty) 0 (fpOf a) (fpOf b)))
def vsubSpec (x : VOp) : Spec := vSpec x 1 tagSame (lanes2 x (fun a b => fpSub (laneF x.ty) 0 (fpOf a) (fpOf b)))
def vmulSpec (x : VOp) : Spec := vSpec x 1 tagMul (lanes2 x (fun a b => fpMul (laneF x.ty) 0 (fpOf a) (fpOf b)))
def vfmaSpec (x : VOp) : Spec := vSpec x 1 tagFma (fun c => perLane x.ty (fun l =>
  fpFma (laneF x.ty) 0 (fpOf (laneOf x.ty (opA x c) l)) (fpOf (laneOf x.ty (opB x c) l)) (fpOf (laneOf x.ty (opD x c) l))))
def vminSpec (x : VOp) : Spec := vSpec x 1 tagPlain2 (lanes2 x (fun a b => fpMin a b false))
def vmaxSpec (x : VOp) : Spec := vSpec x 1 tagPlain2 (lanes2 x (fun a b => fpMin a b true))
def vabsSpec (x : VOp) : Spec := vSpec x 1 tagPlain1 (lanes1 x (fun a => withSign a false))
def vnegSpec (x : VOp) : Spec := vSpec x 1 tagKept (lanes1 x (fun a => withSign a (!nb a 31)))
def vsclSpec (x : VOp) : Spec :=
  vSpec x 1 tagKept (fun c => lanes1 x (fun a => fpMul (laneF x.ty) 0 (fpOf a) (fpOf (opS x c))) c)
def vaddsSpec (x : VOp) : Spec :=
  vSpec x 1 tagPlain1 (fun c => lanes1 x (fun a => fpAdd (laneF x.ty) 0 (fpOf a) (fpOf (opS x c))) c)
def vmovSpec (x : VOp) : Spec := vSpec x 1 tagKept (fun c => (opA x c, {}))
def vbcastSpec (x : VOp) : Spec := vSpec x 1 tagNew (fun c =>
  (ofLanes x.ty (List.replicate (laneCount x.ty) (match x.ty with | .f32 => opS x c | .bf16 => opS x c * 2 ^ 16)), {}))
def vrcpSpec (x : VOp) : Spec := vSpec x 2 tagPlain1 (lanes1 x (fun a => fpRcp (laneF x.ty) (fpOf a)))
def vrsqSpec (x : VOp) : Spec := vSpec x 2 tagPlain1 (lanes1 x (fun a => fpRsq (laneF x.ty) (fpOf a)))
def vexp2Spec (x : VOp) : Spec := vSpec x 2 tagPlain1 (lanes1 x (fpExp2 (laneF x.ty)))
def vlog2Spec (x : VOp) : Spec := vSpec x 2 tagPlain1 (lanes1 x (fpLog2 (laneF x.ty)))
def vtanhSpec (x : VOp) : Spec := vSpec x 2 tagPlain1 (lanes1 x (fpTanh (laneF x.ty)))
def vgeluSpec (x : VOp) : Spec := vSpec x 2 tagPlain1 (lanes1 x (fpGelu (laneF x.ty)))

/-! ### Reductions (R350) -/

/-- One level: adjacent results combined. -/
def redLevel (op : Nat → Nat → FRes) : List FRes → List FRes
  | a :: b :: rest => let r := op a.1 b.1; (r.1, a.2 ||| b.2 ||| r.2) :: redLevel op rest
  | xs => xs

/-- `n` levels. -/
def redLevels (op : Nat → Nat → FRes) : Nat → List FRes → List FRes
  | 0, xs => xs
  | n + 1, xs => redLevels op n (redLevel op xs)

/-- VRED: the result in lane 0, zero elsewhere; for BF16 it is rounded once to BF16. -/
def reduce (x : VOp) (op : Nat → Nat → FRes) (c : PCtx) : BitVec 1024 × Conv :=
  let xs := (List.range (laneCount x.ty)).map (fun l => (laneOf x.ty (opA x c) l, (0 : W32)))
  let r := (redLevels op 6 xs).headD (0, 0)
  match x.ty with
  | .f32 => (BitVec.ofNat 1024 r.1, { flags := r.2 })
  | .bf16 => let q := fpNarrow 7 0 (fpOf r.1); (BitVec.ofNat 1024 (q.1 / 2 ^ 16), { flags := r.2 ||| q.2 })

def vredSumSpec (x : VOp) : Spec := vSpec x 2 tagKept (reduce x (fun a b => fpAdd 23 0 (fpOf a) (fpOf b)))
def vredMaxSpec (x : VOp) : Spec := vSpec x 2 tagPlain1 (reduce x (fun a b => fpMin a b true))

/-! ### Conversions (R351) -/

/-- Bits `[lo + w - 1 : lo]` of a number replaced. -/
def putBits (v lo w x : Nat) : Nat := v / 2 ^ (lo + w) * 2 ^ (lo + w) + x % 2 ^ w * 2 ^ lo + v % 2 ^ lo

/-- The scale of a VCVT. -/
def cvtScale (x : VOp) (m : CvtMode) (c : PCtx) : Option Nat := if m.sc then some (opS x c) else none

/-- 32 conversions: element `j` of width `w` goes to its place in vd, from bit `lo` on. -/
def converted (x : VOp) (c : PCtx) (lo w : Nat) (f : Nat → Nat × Conv) : BitVec 1024 × Conv :=
  let rs := (List.range 32).map f
  (BitVec.ofNat 1024 (putBits (opD x c).toNat lo (32 * w) (packBits w (rs.map (·.1)))), rs.foldl (fun a r => a.join r.2) {})

def vcvtBfSpec (x : VOp) (m : CvtMode) : Spec := vSpec x 2 tagKept (fun c =>
  converted x c (512 * m.p.toNat) 16 (fun j =>
    let v := laneOf .f32 (opA x c) j
    let r := toFloat 7 (fpOf v) (magnitude v) (cvtScale x m c)
    (r.1 / 2 ^ 16, r.2)))
def vcvtFbSpec (x : VOp) (m : CvtMode) : Spec := vSpec x 2 tagKept (fun c =>
  converted x c 0 32 (fun j =>
    let v := nf (opA x c).toNat (512 * m.p.toNat + 16 * j) 16 * 2 ^ 16
    toFloat 23 (fpOf v) (magnitude v) (cvtScale x m c)))
def vcvtFiSpec (x : VOp) (m : CvtMode) : Spec := vSpec x 2 tagKept (fun c =>
  let w := fmtBits m.ifmt.toNat
  converted x c (32 * w * m.p.toNat) w (fun j =>
    let v := laneOf .f32 (opA x c) j
    toNarrow m.ifmt.toNat c.nfmt (fpOf v) (magnitude v) (cvtScale x m c)))
def vcvtIfSpec (x : VOp) (m : CvtMode) : Spec := vSpec x 2 tagKept (fun c =>
  let w := fmtBits m.ifmt.toNat
  converted x c 0 32 (fun j =>
    let v := intValue m.ifmt.toNat (nf (opA x c).toNat (w * (32 * m.p.toNat + j)) w)
    toFloat 23 (.fin (decide (v < 0)) v.natAbs 0) (roundF 23 0 false v.natAbs 0).1 (cvtScale x m c)))

/-! ### Rotation (R352) -/

def vropeSpec (x : VOp) : Spec := vSpec x 2 tagPlain2 (fun c =>
  let rs := (List.range 16).flatMap (fun j =>
    let r := ropePair (opS x c) (laneOf .f32 (opB x c) j) (laneOf .f32 (opA x c) (2 * j)) (laneOf .f32 (opA x c) (2 * j + 1))
    [r.1, r.2])
  (ofLanes .f32 (rs.map (·.1)), { flags := flagsOf rs }))

/-! ### Instructions -/

/-- VADD (R348). -/
def execVadd (x : VOp) (s : State) : Out := s.issuing none (vaddSpec x)
/-- VSUB (R348). -/
def execVsub (x : VOp) (s : State) : Out := s.issuing none (vsubSpec x)
/-- VMUL (R348). -/
def execVmul (x : VOp) (s : State) : Out := s.issuing none (vmulSpec x)
/-- VFMA (R348). -/
def execVfma (x : VOp) (s : State) : Out := s.issuing none (vfmaSpec x)
/-- VMIN (R348). -/
def execVmin (x : VOp) (s : State) : Out := s.issuing none (vminSpec x)
/-- VMAX (R348). -/
def execVmax (x : VOp) (s : State) : Out := s.issuing none (vmaxSpec x)
/-- VABS (R348). -/
def execVabs (x : VOp) (s : State) : Out := s.issuing none (vabsSpec x)
/-- VNEG (R348). -/
def execVneg (x : VOp) (s : State) : Out := s.issuing none (vnegSpec x)
/-- VSCL (R348). -/
def execVscl (x : VOp) (s : State) : Out := s.issuing none (vsclSpec x)
/-- VADDS (R348). -/
def execVadds (x : VOp) (s : State) : Out := s.issuing none (vaddsSpec x)
/-- VMOV (R348). -/
def execVmov (x : VOp) (s : State) : Out := s.issuing none (vmovSpec x)
/-- VBCAST (R348). -/
def execVbcast (x : VOp) (s : State) : Out := s.issuing none (vbcastSpec x)
/-- VRED.SUM (R350). -/
def execVredSum (x : VOp) (s : State) : Out := s.issuing none (vredSumSpec x)
/-- VRED.MAX (R350). -/
def execVredMax (x : VOp) (s : State) : Out := s.issuing none (vredMaxSpec x)
/-- VRCP (R348). -/
def execVrcp (x : VOp) (s : State) : Out := s.issuing none (vrcpSpec x)
/-- VRSQ (R348). -/
def execVrsq (x : VOp) (s : State) : Out := s.issuing none (vrsqSpec x)
/-- VEXP2 (R349). -/
def execVexp2 (x : VOp) (s : State) : Out := s.issuing none (vexp2Spec x)
/-- VLOG2 (R349). -/
def execVlog2 (x : VOp) (s : State) : Out := s.issuing none (vlog2Spec x)
/-- VTANH (R349). -/
def execVtanh (x : VOp) (s : State) : Out := s.issuing none (vtanhSpec x)
/-- VGELU (R349). -/
def execVgelu (x : VOp) (s : State) : Out := s.issuing none (vgeluSpec x)
/-- VROPE (R352). -/
def execVrope (x : VOp) (s : State) : Out := s.issuing none (vropeSpec x)
/-- VCVT.BF (R351). -/
def execVcvtBf (x : VOp) (m : CvtMode) (s : State) : Out := s.issuing none (vcvtBfSpec x m)
/-- VCVT.FB (R351). -/
def execVcvtFb (x : VOp) (m : CvtMode) (s : State) : Out := s.issuing none (vcvtFbSpec x m)
/-- VCVT.FI (R351). -/
def execVcvtFi (x : VOp) (m : CvtMode) (s : State) : Out := s.issuing none (vcvtFiSpec x m)
/-- VCVT.IF (R351). -/
def execVcvtIf (x : VOp) (m : CvtMode) (s : State) : Out := s.issuing none (vcvtIfSpec x m)

end Sys2Proof.Machine
end

