-- ==== Sys2Proof/Machine/PressEvents.lean ====
section
/-! DEFINITION. Events of a press: the resume of a held instruction, faults that the fetch and decode of a group find, the ends of
STOPPING and of a fault's drain, and the posts to event queues (R309, R314, R317, R321, R322, R332, R358). -/
namespace Sys2Proof.Machine

/-! ### Held instructions (R309) -/

/-- What a held instruction needs, checks and does; `p` is its press. -/
def heldSpec (p : Nat) : HeldOp → Spec
  | .mma x => mmaSpec x
  | .mmak x => mmaSpec x
  | .bload g y pl k0 n1 bw => bloadSpec g y pl k0 n1 bw
  | .astore g b y r n h => astoreSpec g b y r n h
  | .astoreW g b y sp => astoreWSpec g b y sp
  | .qrel g y => qrelSpec g y
  | .qpush g y u q => qpushSpec g y u q
  | .qpushE g y c q => qpushESpec p g y c q

/-- Bundles that have issued after the one of ordinal `j` (R317, R322). -/
def Press.slipOf (x : Press) (j : Nat) : Nat := x.bundles - 1 - j

/-- The context of a held instruction: its latched operands, the press as it now stands (R309). -/
def Press.heldCtx (x : Press) (h : Held) : PCtx :=
  { x := { x with atFpc := h.fpc }, t := x.beat, nfmt := h.nfmt.toNat, sreg := fun _ => h.sp,
    th := fun i => (nth 0 h.th (i - 1)).toNat }

/-- Everything that a held instruction needs is free, or its tile register has become invalid (R309, R335, R358). -/
def State.canResume (s : State) (p : Nat) (h : Held) (e : Spec) : Bool :=
  let x := s.pressAt p
  !(x.tileProblem e.tile).isEmpty || !x.tileWaits x.beat e.tile && !s.pushWaits p h.ticket e.push
    && (!e.engine || freeAt x.slotFree e.slot.code x.beat)
    && (match e.bank with | some b => freeAt x.bankFree b x.beat | none => true)

/-- HELD_INSTRUCTION_RESUME (R309): the checks are made again, and a failure faults with RES = 1 (R322). -/
def execHeldInstructionResume (p : Nat) (e : PressSlot) (s : State) : Out :=
  let s := { s with press := p }
  let x := s.pressAt p
  match x.held.find? (fun h => h.1 == e.code) with
  | none => .next s
  | some (_, h) =>
    let sp := heldSpec p h.instr
    if decide (x.st ≠ .run) || x.faulted || !s.canResume p h sp then .next s
    else
      let s1 := s.updPress p (fun x => { x with held := merase x.held e.code })
      let c := x.heldCtx h
      match leastProblem (x.tileProblem sp.tile ++ sp.check c) with
      | some (code, args) =>
        let a := s1.pickArg args
        .next (a.2.raise p ⟨code, if code ≤ 2 then 0 else e.code, true, x.slipOf h.bundle, false, a.1, h.fpc⟩)
      | none => .next (s1.perform sp c h.guard)

/-! ### Faults of a whole group (R321, R332) -/

/-- ILLEGAL_BUNDLE: the fault that the fetch or decode of a group finds, a memory error of its words too; nothing of the group
issues. -/
def execIllegalBundle (p : Nat) (f : PressFaultRec) (s : State) : Out :=
  .next ((if f.code = 7 then s.memError (imemBase p + f.fpc) else s).raise p f)

/-- PRESS_FETCH_FAULT (R321). -/
def execPressFetchFault (p fpc : Nat) (s : State) : Out := .next (s.raise p ⟨1, 0, false, 0, false, 0, fpc⟩)

/-! ### Ends (R314, R317) -/

/-- No engine slot that is not held has beats left. -/
def Press.drained (x : Press) : Bool := [0, 1, 2, 3, 4].all (fun k => freeAt x.slotFree k x.beat) && decide (x.nextAt ≤ x.beat)

/-- The last beat at which something is still to become visible. -/
def Press.lastBeat (x : Press) : Nat := x.pend.foldl (fun acc e => max acc e.1) x.beat

/-- The word posted on entry to STOPPED or FAULT (R317). -/
def stopWord (p code pcw : Nat) : W64 :=
  w64 (code % 256 + p % 2 * 2 ^ 8 + pressCluster p % 2 ^ 7 * 2 ^ 9 + pcw % 2 ^ 16 * 2 ^ 16)

/-- The event of an entry to STOPPED or FAULT, if EVT names a queue (R317); `raised` is the cycle of a fault. -/
def Press.posting (x : Press) (word : W64) (raised : Option Nat) : Press :=
  { x with evPost := if x.evt = 0 then x.evPost else x.evPost ++ [(word, x.evt, raised)] }

/-- Everything that is still due takes place, beat by beat (R333, R334). -/
def State.settleAll (s : State) (p : Nat) : State :=
  let x := s.pressAt p
  (List.range (x.lastBeat + 1 - x.beat)).foldl (fun t i => t.settleAt p (x.beat + i)) s

/-- Entry to STOPPED or FAULT: everything issued runs to its end, and the event goes out. -/
def State.pressEnds (s : State) (p : Nat) (st : PressState) (word : W64) : State :=
  (s.settleAll p).updPress p (fun x =>
    { x with st := st, faulted := false, slotFree := [], laneFree := [], bankFree := [], yWriter := [], yReader := [] }.posting
      word (if st = PressState.fault then some x.faultAt else none))

/-- PRESS_STOPPED (R314). -/
def execPressStopped (p : Nat) (s : State) : Out :=
  let x := s.pressAt p
  if decide (x.st = .stopping) && !x.faulted && x.issue.isEmpty && x.drained then
    .next (s.pressEnds p .stopped (stopWord p 0 x.pc))
  else .next s

/-- PRESS_FAULT_SETTLED (R314). -/
def execPressFaultSettled (p : Nat) (s : State) : Out :=
  let x := s.pressAt p
  if x.faulted && x.drained then .next (s.pressEnds p .fault (stopWord p (x.fcause.toNat % 256) x.fpc.toNat))
  else .next s

/-- The core and queue that EVT names, seen from the press's own cluster (R316). -/
def State.pressTarget (s : State) (p : Nat) (evt : W64) : Option (Nat × Nat) := s.evtTarget (16 * pressCluster p) evt.toNat

/-- The event of a fault of MU1 comes after that of a fault that MU0 of the cluster raises in the same cycle for the same queue:
MU0's event waits to enter, MU0 drains, or it has not run through the cycle yet (R327; log entry 86). -/
def State.mu0First (s : State) (p : Nat) (dst : Nat × Nat) (raised : Option Nat) : Bool :=
  let x := s.pressAt (p - 1)
  match raised with
  | none => false
  | some c => decide (p % 2 = 1) && (x.evPost.any (fun e => decide (e.2.2 = some c) && decide (s.pressTarget (p - 1) e.2.1 = some dst))
    || (decide (x.st = .run) || decide (x.st = .stopping)) && decide (s.pressTarget (p - 1) x.evt = some dst) && decide (x.evt ≠ 0)
      && (if x.faulted then decide (x.faultAt = c) else decide (x.cycle ≤ c)))

/-- PRESS_EVENT_POST: the oldest event waits in the press while its queue is full (R317). -/
def execPressEventPost (p : Nat) (s : State) : Out :=
  let x := s.pressAt p
  match x.evPost with
  | [] => .next s
  | (w, evt, c) :: rest =>
    match s.pressTarget p evt with
    | none => .next s
    | some (u, q) =>
      if s.mu0First p (u, q) c then .next s
      else match s.postEq u q w .cluster with
      | none => .next s
      | some t => .next ((t.updPress p (fun x => { x with evPost := rest })).tell (pressUnit p) u)

end Sys2Proof.Machine
end

