-- ==== Sys2Proof/Machine/PressControl.lean ====
section
/-! DEFINITION. The MU commands and control registers of a press (10_matrix_unit_core.md R316 to R320), its context image and the
end of MU.SAVE and MU.LOAD (R323 to R326). -/
namespace Sys2Proof.Machine

/-! ### Control registers (R316, R317) -/

/-- STATE of PSTAT. -/
def pressStateCode : PressState → Nat
  | .stopped => 0 | .run => 1 | .fault => 2 | .stopping => 3

/-- A held record is set. -/
def Press.isHeld (x : Press) (k : Nat) : Bool := x.held.any (fun e => e.1 == k)

/-- PSTAT (R317). -/
def Press.pstat (x : Press) : Nat :=
  pressStateCode x.st + b2n (!x.held.isEmpty) * 4 + b2n (x.isHeld 0) * 8 + b2n (x.isHeld 1) * 16 + b2n (x.isHeld 4) * 32
    + b2n (x.isHeld 5) * 64
    + (x.held.foldl (fun acc e => max acc (x.slipOf e.2.bundle)) 0) % 8 * 2 ^ 8

/-- ROT (R301). -/
def Press.rotWord (x : Press) : Nat := x.rsize.toNat + x.rrb.toNat * 2 ^ 8

/-- PREC0, PREC1 (R295). -/
def Press.prec (x : Press) (p : Nat) : Nat :=
  let q := x.plane p
  q.rfmt.toNat + b2n q.valid * 8 + b2n (decide (x.activeP = p)) * 16 + b2n q.loading * 32 + q.kext % 512 * 256

/-- TAGS. -/
def Press.tagsWord (x : Press) : Nat := ((List.range 8).map (fun b => x.tagOf b * 16 ^ b)).sum

/-- What MU.GETR reads. -/
def Press.readReg (x : Press) (n : Nat) : Nat :=
  match n with
  | 0 => x.pstat
  | 1 => x.pc % 0x10000
  | 2 => x.fcause.toNat
  | 3 => x.fpc.toNat
  | 4 => x.nfmtAt x.bundles
  | 5 => x.pfs.toNat
  | 6 => x.amax.toNat
  | 7 => x.satc.toNat
  | 13 => x.rotWord
  | 14 => x.evt.toNat
  | 15 => x.cyc.toNat
  | 24 => ((List.range 4).map (fun q => (x.queueOf q).length * 256 ^ q)).sum
  | 25 => x.tagsWord
  | 26 => x.prec 0
  | 27 => x.prec 1
  | n => if n ≤ 12 then (mget 0 x.th (n - 7)).toNat else (mget 0 x.dropc (n - 16)).toNat

/-- A write of ROT; RRB at or above n is reserved (R301). -/
def Press.writeRot (x : Press) (v : Nat) : Press :=
  let y := { x with rsize := BitVec.ofNat 2 (nf v 0 2) }
  if nf v 8 5 < y.rot then { y with rrb := BitVec.ofNat 5 (nf v 8 5) } else y

/-- RUN or STOPPING. -/
def Press.running (x : Press) : Bool := decide (x.st = .run) || decide (x.st = .stopping)

/-- What MU.SETR writes; a write of NFMT leaves a pending S-slot write its count (R313); PFS, AMAX and SATC of a running press change at its next boundary (R316). -/
def Press.writeReg (x : Press) (n : Nat) (v : W64) : Press :=
  let v32 : W32 := v.truncate 32
  let now (w : PWrite) : Press := if x.running then { x with pend := x.pend ++ [(x.beat + 1, w)] } else x.applyWrite w
  match n with
  | 4 => { x.settleNfmt with nfmt := w32 (nfmtWrite (x.nfmtAt x.bundles) v.toNat) }
  | 5 => now (.setPfs v32)
  | 6 => now (.setAmax v32)
  | 7 => now (.setSatc v32)
  | 13 => x.writeRot v.toNat
  | 14 => { x with evt := v }
  | n => if n ≤ 12 then { x with th := mset 0 x.th (n - 7) v32 } else { x with dropc := mset 0 x.dropc (n - 16) v32 }

/-- Registers that strands cannot write, and those that they write only while the press does not run. -/
def readOnlyReg (n : Nat) : Bool := decide (n ≤ 3) || decide (n = 15) || decide (24 ≤ n)
def stoppedReg (n : Nat) : Bool := !(decide (n = 5) || decide (n = 6) || decide (n = 7))

/-! ### MU commands (R318 to R320) -/

/-- The press that a command of the running strand names. -/
def State.muPress (s : State) (u : BitVec 1) : Nat := pressNo (clusterOf s.cur) u.toNat

/-- A copy or an image is under way (R319, R323). -/
def Press.isBusy (x : Press) (now : Nat) : Bool :=
  match x.busy with
  | none => false
  | some (.imld t) => decide (now < t)
  | some _ => true

/-- A command that completes has its message and its answer, which carry clocks (R58). -/
def Done.answered (f : State → State) : Done → Done
  | .ok t lat => .ok (f t) lat
  | d => d

/-- A command other than MU.GETR and MU.STOP: refused while the press is busy, or where `bad` says so. -/
def State.muCommand (s : State) (u : BitVec 1) (bad : Press → Bool) (k : Nat → Press → Done) : Out :=
  let p := s.muPress u
  let x := s.pressAt p
  onStrand s (if x.isBusy s.cycle || bad x then .trap s.command else (k p x).answered (fun t => t.exchange s.cur (pressUnit p)))

/-- MU.GETR; registers 0, 1 and 15 are acquires at CLUSTER scope (R64, R318; log entry 78). -/
def execMuGetr (d a : GReg) (u : BitVec 1) (s : State) : Out :=
  let n := (s.readG a).toNat
  let p := s.muPress u
  onStrand s (if 27 < n then .trap s.command
    else
      let acq := n = 0 ∨ n = 1 ∨ n = 15
      let t := s.exchange s.cur (pressUnit p)
      (if acq then t.acquire s.cur s.slot .cluster else t).gives d (w64 ((s.pressAt p).readReg n))
        (8 + if acq then acqCost s.cur .cluster else 0))

/-- MU.SETR. -/
def execMuSetr (a b : GReg) (u : BitVec 1) (s : State) : Out :=
  let n := (s.readG a).toNat
  let v := s.readG b
  s.muCommand u (fun x => decide (27 < n) || readOnlyReg n || (stoppedReg n && x.running) || (decide (n = 14) && !s.evtOk v.toNat))
    (fun p x => .ok (s.setPress p (x.writeReg n v)) 8)

/-- MU.GETS. -/
def execMuGets (d a : GReg) (u : BitVec 1) (s : State) : Out :=
  let n := (s.readG a).toNat
  s.muCommand u (fun x => decide (31 < n) || x.running) (fun _ x => s.gives d (zx (mget 0 x.s n)) 8)

/-- MU.SETS. -/
def execMuSets (a b : GReg) (u : BitVec 1) (s : State) : Out :=
  let n := (s.readG a).toNat
  s.muCommand u (fun x => decide (31 < n) || x.running)
    (fun p x => .ok (s.setPress p { x with s := mset 0 x.s n ((s.readG b).truncate 32) }) 8)

/-- MU.IMLD: bytes of the core's local memory into instruction memory (R319). -/
def execMuImld (a b : GReg) (u : BitVec 1) (s : State) : Out :=
  let v := (s.readG a).toNat
  let n := (s.readG b).toNat
  let src := nf v 0 16
  let dst := nf v 16 16
  s.muCommand u (fun x => x.running || decide (nf v 32 32 ≠ 0) || decide (src % 4 ≠ 0) || decide (dst % 4 ≠ 0) || decide (n % 4 ≠ 0)
      || decide (n = 0) || decide (0x10000 < src + n) || decide (0x10000 < dst + n))
    (fun p x =>
      let t := s.landFor s.cur (.localMem s.cur)
      let lat := 16 + (n + 15) / 16
      if t.bad (localBase s.cur + src) n then t.errorTrap (localBase s.cur + src) { code := 0x14, eval := w64 src }
      else .ok ((t.put (imemBase p + dst) (t.bytesAt (localBase s.cur + src) n)).setPress p
        { x with busy := some (.imld (s.cycle + lat)) }) lat)

/-- Entry to RUN. -/
def Press.enterRun (x : Press) (now : Nat) : Press := { x with st := .run, cycle := now, nextAt := x.beat, faulted := false }

/-- MU.START (R318). -/
def execMuStart (a : GReg) (u : BitVec 1) (s : State) : Out :=
  let v := (s.readG a).toNat
  s.muCommand u (fun x => decide (x.st ≠ .stopped) || !x.held.isEmpty || decide (0x10000 ≤ v) || decide (v % 4 ≠ 0))
    (fun p x => .ok (s.setPress p ({ x with pc := v }.enterRun s.cycle)) 8)

/-- MU.RESUME (R318). -/
def execMuResume (u : BitVec 1) (s : State) : Out :=
  s.muCommand u (fun x => decide (x.st ≠ .stopped))
    (fun p x => .ok (s.setPress p (x.enterRun s.cycle)) 8)

/-- RUN to STOPPING (R314); the boundary after the current beat is the next one. -/
def Press.requestStop (x : Press) : Press :=
  if x.st = .run then { x with st := .stopping, nextAt := min x.nextAt (x.beat + 1) } else x

/-- MU.STOP (R318). -/
def execMuStop (d : GReg) (u : BitVec 1) (s : State) : Out :=
  let p := s.muPress u
  onStrand s (((s.updPress p Press.requestStop).exchange s.cur (pressUnit p)).gives d (w64 (s.pressAt p).pstat) 8)

/-- Handles whose tiles MU.RESET releases: those in tile registers and in queues (R320). -/
def Press.handles (x : Press) : List W32 :=
  x.y.filterMap (fun e => if e.2.v && !e.2.arm then some e.2.handle else none) ++ x.q.flatMap (fun e => e.2.map (·.1))

/-- Tiles still current are released; how many. -/
def State.releaseAll (s : State) : List W32 → State × Nat
  | [] => (s, 0)
  | h :: hs =>
    let r := tileRef h
    let live := decide ((s.buf r.cl r.b).gen = r.gen)
    let m := (s.releaseTile h).releaseAll hs
    (m.1, m.2 + b2n live)

/-- Press `p` after a reset: it enters STOPPED, and its event goes out (R314, R317, R320). -/
def Press.wiped (x : Press) (p : Nat) : Press :=
  { x with
    fcause := 0, fpc := 0, held := [], nfmt := w32 (x.nfmtAt x.bundles), nfmtPend := [], slotFree := [], laneFree := [], bankFree := []
    yWriter := [], yReader := [], cyc := 0, y := [], q := [], pc := 0, st := .stopped, pend := [], issue := [], found := none
    faulted := false, nextAt := x.beat }.posting (stopWord p 0 0) none

/-- MU.RESET: 8 cycles and 4 for each tile released (R320). -/
def execMuReset (u : BitVec 1) (s : State) : Out :=
  s.muCommand u Press.running (fun p x =>
    let m := (s.setPress p (x.wiped p)).releaseAll x.handles
    .ok m.1 (8 + 4 * m.2))

/-! ### Context images (R323 to R325) -/

/-- Bytes of a context image. -/
def imageBytes : Nat := 0x88000

/-- A number in the 8 bytes of a doubleword. -/
def dw (v : Nat) : List Byte := leBytes 8 v

/-- The low word of an A slot instruction, the A fields below CNT given (R339). -/
def slotA (g : BitVec 4) (op cnt : Nat) (bank : BitVec 3) (low : Nat) : Nat :=
  g.toNat * 2 ^ 28 + op * 2 ^ 24 + cnt % 128 * 2 ^ 17 + bank.toNat * 2 ^ 14 + low
/-- The words of an M slot (R337). -/
def slotM (op : Nat) (x : MOp) : Nat :=
  x.guard.toNat * 2 ^ 28 + op * 2 ^ 24 + x.beats % 256 * 2 ^ 16 + x.yt.toNat * 2 ^ 13 + x.bank.toNat * 2 ^ 10 + x.trow.toNat * 16
    + (x.brow.toNat * 2 ^ 27 + x.n1.toNat * 2 ^ 22 + x.kx1.toNat * 2 ^ 14 + x.koff.toNat * 2 ^ 6 + b2n x.aw * 32) * 2 ^ 32
/-- The slot word of a held instruction (R337, R339, R353, R356); an M word has 64 bits. -/
def heldWord (p : Nat) (h : HeldOp) : Nat :=
  let cnt := (heldSpec p h).beats
  match h with
  | .mma x => slotM 1 x
  | .mmak x => slotM 2 x
  | .bload g y pl k0 n1 bw =>
    g.toNat * 2 ^ 28 + 2 ^ 24 + cnt % 128 * 2 ^ 17 + y.toNat * 2 ^ 14 + pl.toNat * 2 ^ 13 + k0.toNat * 256 + n1.toNat * 4 + bw.toNat
  | .astore g b y r n d => slotA g 6 cnt b (y.toNat * 2 ^ 11 + r.toNat * 64 + n.toNat * 2 + b2n d)
  | .astoreW g b y sp => slotA g 7 cnt b (y.toNat * 2 ^ 11 + sp.toNat * 64)
  | .qrel g y => g.toNat * 2 ^ 28 + 2 * 2 ^ 24 + y.toNat * 2 ^ 21
  | .qpush g y u q => g.toNat * 2 ^ 28 + 3 * 2 ^ 24 + y.toNat * 2 ^ 21 + u.toNat * 2 ^ 19 + q.toNat * 2 ^ 17
  | .qpushE g y c q => g.toNat * 2 ^ 28 + 3 * 2 ^ 24 + y.toNat * 2 ^ 21 + 2 ^ 20 + c.toNat * 2 ^ 16 + q.toNat * 2 ^ 14

/-- The fields of an M slot. -/
def slotMOp (v : Nat) : MOp :=
  { guard := BitVec.ofNat 4 (nf v 28 4), yt := BitVec.ofNat 3 (nf v 13 3), bank := BitVec.ofNat 3 (nf v 10 3),
    trow := BitVec.ofNat 6 (nf v 4 6), brow := BitVec.ofNat 5 (nf v 59 5), n1 := BitVec.ofNat 5 (nf v 54 5),
    kx1 := BitVec.ofNat 8 (nf v 46 8), koff := BitVec.ofNat 8 (nf v 38 8), aw := nb v 37 }
/-- The instruction of the held record of slot code `k` with a slot word; none for a word that names no instruction that is held. -/
def heldOfWord (k v : Nat) : Option HeldOp :=
  let g : BitVec 4 := BitVec.ofNat 4 (nf v 28 4)
  let f (n lo : Nat) : BitVec n := BitVec.ofNat n (nf v lo n)
  match k, nf v 24 4 with
  | 0, 1 => some (.mma (slotMOp v))
  | 0, 2 => some (.mmak (slotMOp v))
  | 1, 6 => some (.astore g (f 3 14) (f 3 11) (f 5 6) (f 5 1) (nb v 0))
  | 1, 7 => some (.astoreW g (f 3 14) (f 3 11) (f 5 6))
  | 4, 1 => some (.bload g (f 3 14) (f 1 13) (f 5 8) (f 6 2) (f 2 0))
  | 5, 2 => some (.qrel g (f 3 21))
  | 5, 3 => if nb v 20 then some (.qpushE g (f 3 21) (f 4 16) (f 2 14)) else some (.qpush g (f 3 21) (f 1 19) (f 2 17))
  | _, _ => none

/-- 64 bytes of a held record; the manual gives its contents but not their places (R325; log entry 27): set and guard outcome in
byte 0, the slip position in byte 1, the offset of the bundle in bytes 2 and 3, NFMT, the slot word, SP, th1 to th5. -/
def heldBytes (p : Nat) (x : Press) (k : Nat) : List Byte :=
  match x.held.find? (fun e => e.1 == k) with
  | none => leBytes 64 0
  | some (_, h) =>
    leBytes 64 (1 + b2n h.guard * 2 + x.slipOf h.bundle % 256 * 2 ^ 8 + h.fpc % 0x10000 * 2 ^ 16 + h.nfmt.toNat * 2 ^ 32
      + heldWord p h.instr * 2 ^ 64 + h.sp.toNat * 2 ^ 128 + packBits 32 (h.th.map BitVec.toNat) * 2 ^ 160)

/-- 256 bytes of a tile register (R325). -/
def tileRegBytes (r : TileReg) : List Byte :=
  dw (b2n r.v + b2n r.arm * 2 + r.armq % 4 * 4 + b2n r.rdy * 16) ++ dw r.handle.toNat
    ++ dw (r.fmt.toNat + b2n r.haar * 16 + r.rows % 128 * 256 + r.pitch % 512 * 2 ^ 16) ++ dw r.vmask.toNat
    ++ (List.range 64).flatMap (fun i => leBytes 3 (mget 0 r.pos i).toNat)
    ++ (List.range 32).flatMap (fun i => leBytes 1 (mget 0 r.rmap i).toNat)

/-- 72 bytes of a queue (R325). -/
def queueBytes (l : List (W32 × Bool)) : List Byte :=
  dw l.length ++ (List.range 16).flatMap (fun i => leBytes 4 (nth (0, false) l i).1.toNat)

/-- The pending write that the image holds: the earliest, with the bundles left to it (R294, R325; log entry 28). -/
def Press.firstPend (x : Press) : Nat × Nat :=
  match x.nfmtPend.filter (fun e => decide (x.bundles < e.2)) with
  | [] => (0, 0)
  | e :: _ => (e.1.toNat, min 3 (e.2 - x.bundles))

/-- The image up to the vectors (R325). -/
def imageHead (s : State) (p : Nat) : List Byte :=
  let x := s.pressAt p
  dw (s.devNum + pressCluster p * 2 ^ 8 + p % 2 * 2 ^ 16) ++ dw (x.pc % 0x10000 + x.pstat * 2 ^ 16)
    ++ dw (x.nfmtAt x.bundles + x.firstPend.1 * 2 ^ 32) ++ dw x.firstPend.2
    ++ dw x.pfs.toNat ++ dw x.amax.toNat ++ dw x.satc.toNat ++ dw x.rotWord
    ++ (List.range 5).flatMap (fun i => dw (mget 0 x.th (i + 1)).toNat)
    ++ (List.range 8).flatMap (fun i => dw (mget 0 x.dropc i).toNat)
    ++ dw x.tagsWord ++ dw x.vtag.toNat ++ dw ((x.c ||| 1).toNat)
    ++ (List.range 32).flatMap (fun i => leBytes 4 (mget 0 x.s i).toNat)
    ++ dw (x.prec 0) ++ dw (x.prec 1) ++ leBytes 32 (x.plane 0).scales.toNat ++ leBytes 32 (x.plane 1).scales.toNat
    ++ leBytes 48 0
    ++ (List.range 8).flatMap (fun i => tileRegBytes (x.tileReg i))
    ++ (List.range 4).flatMap (fun i => queueBytes (x.queueOf i))
    ++ [0, 1, 4, 5].flatMap (heldBytes p x)

/-- Rows of both planes, P0 first. -/
def Press.planeRows (x : Press) : List (BitVec 4096) :=
  (List.range 512).map (fun i => mget 0 (x.plane (i / 256)).rows (i % 256))

/-- The plane regions: the contents in a form of their own (R325). -/
def planeRegion (rows : List (BitVec 4096)) : List Byte :=
  (rows.flatMap (fun r => leBytes 512 r.toNat)).zipIdx.map (fun e => e.1 ^^^ Config.planeMask e.2)

/-- A list of bytes extended with zeros. -/
def padTo (n : Nat) (bs : List Byte) : List Byte := bs ++ List.replicate (n - bs.length) 0

/-- The whole image. -/
def pressImage (s : State) (p : Nat) : List Byte :=
  let x := s.pressAt p
  padTo 0x4000 (imageHead s p) ++ padTo 0x4000 ((List.range 64).flatMap (fun i => leBytes 128 (mget 0 x.v i).toNat))
    ++ (List.range 256).flatMap (fun i => leBytes 1024 (x.row (i / 32) (i % 32)).toNat)
    ++ planeRegion x.planeRows

/-- The number in `n` bytes of an image at an offset. -/
def imgNum (bs : List Byte) (off n : Nat) : Nat := leNat ((bs.drop off).take n)

/-- A tile register from an image; a register that is armed takes its place in the order of arming from `seq`. -/
def tileRegOf (bs : List Byte) (k seq : Nat) : TileReg :=
  let o := 0x1C0 + 256 * k
  let w := imgNum bs o 8
  let m := imgNum bs (o + 16) 8
  { v := nb w 0, arm := nb w 1, armq := nf w 2 2, armSeq := seq, rdy := nb w 4, handle := w32 (imgNum bs (o + 8) 4),
    fmt := BitVec.ofNat 4 m, haar := nb m 4, rows := nf m 8 7, pitch := nf m 16 9, vmask := w64 (imgNum bs (o + 24) 8),
    pos := (List.range 64).foldl (fun t i => mset 0 t i (BitVec.ofNat 24 (imgNum bs (o + 32 + 3 * i) 3))) [],
    rmap := (List.range 32).foldl (fun t i => mset 0 t i (BitVec.ofNat 5 (imgNum bs (o + 224 + i) 1))) [] }

/-- A held record from an image. -/
def heldOf (bs : List Byte) (bundles k i : Nat) : Option (Nat × Held) :=
  let v := imgNum bs (0xAE0 + 64 * i) 64
  if !nb v 0 then none
  else match heldOfWord k (nf v 64 64) with
  | none => none
  | some ins => some (k,
      { instr := ins, guard := nb v 1, nfmt := w32 (nf v 32 32), sp := w32 (nf v 128 32),
        th := (List.range 5).map (fun j => w32 (nf v (160 + 32 * j) 32)), fpc := nf v 16 16,
        bundle := bundles - 1 - nf v 8 8, ticket := 0 })

/-- A table of `n` numbers of `b` bits that an image holds in steps of `w` bytes from an offset. -/
def mapOf (b : Nat) (bs : List Byte) (off w n first : Nat) : Map (BitVec b) :=
  (List.range n).foldl (fun t i => mset 0 t (first + i) (BitVec.ofNat b (imgNum bs (off + w * i) w))) []

/-- A plane from its record, scales and rows. -/
def planeFrom (rec_ scales : Nat) (rows : List (BitVec 4096)) : Plane :=
  { rfmt := BitVec.ofNat 3 rec_, valid := nb rec_ 3, loading := false, kext := nf rec_ 8 9, scales := BitVec.ofNat 256 scales,
    rows := rows.zipIdx.foldl (fun m e => mset 0 m e.2 e.1) [] }

/-- Rows whose contents are undefined element by element (R325): free values. -/
def freeRows (from_ : Nat) : List (BitVec 4096) :=
  (List.range 512).map (fun r => BitVec.ofNat 4096
    (packBits 64 ((List.range 64).map (fun j => (Config.freeValue (from_ + 64 * r + j)).toNat))))

/-- The press that an image describes (R324, R325), with the planes' rows given. -/
def Press.fromImage (x : Press) (bs : List Byte) (rows : List (BitVec 4096)) (seq : Nat → Nat)
    (pushed : W32 → Bool) : Press :=
  let bundles := x.bundles + 8
  let pend := imgNum bs 0x18 1 % 4
  let rot := imgNum bs 0x38 4
  { x with
    planes := [(0, planeFrom (imgNum bs 0x140 8) (imgNum bs 0x150 32) (rows.take 256)),
      (1, planeFrom (imgNum bs 0x148 8) (imgNum bs 0x170 32) (rows.drop 256))]
    active1 := nb (imgNum bs 0x148 8) 4
    acc := (List.range 8).foldl (fun m b => mset [] m b (mapOf 8192 bs (0x8000 + 0x8000 * b) 1024 32 0)) []
    tags := (List.range 8).foldl (fun m b => mset 0 m b (BitVec.ofNat 4 (nf (imgNum bs 0xA8 8) (4 * b) 4))) []
    dropc := mapOf 32 bs 0x68 8 8 0
    v := mapOf 1024 bs 0x4000 128 64 0
    vtag := w64 (imgNum bs 0xB0 8)
    s := mapOf 32 bs 0xC0 4 32 0
    c := BitVec.ofNat 16 (imgNum bs 0xB8 2)
    y := (List.range 8).foldl (fun m k => mset {} m k (tileRegOf bs k (seq k))) []
    q := (List.range 4).foldl (fun m k =>
      let o := 0x9C0 + 72 * k
      mset [] m k ((List.range (min 16 (imgNum bs o 8))).map (fun i =>
        (w32 (imgNum bs (o + 8 + 4 * i) 4), pushed (w32 (imgNum bs (o + 8 + 4 * i) 4)))))) []
    nfmt := w32 (nfmtWrite 0x18011 (imgNum bs 0x10 4))
    nfmtPend := if pend = 0 then [] else [(w32 (imgNum bs 0x14 4), bundles + pend)]
    pfs := w32 (imgNum bs 0x20 4) &&& 0x3F#32, amax := w32 (imgNum bs 0x28 4), satc := w32 (imgNum bs 0x30 4)
    th := mapOf 32 bs 0x40 8 5 1
    rsize := BitVec.ofNat 2 rot, rrb := BitVec.ofNat 5 (nf rot 8 5)
    pc := imgNum bs 8 2
    cyc := 0, bundles := bundles, armSeq := x.armSeq + 2 ^ 20
    held := [(0, 0), (1, 1), (4, 2), (5, 3)].filterMap (fun e => heldOf bs bundles e.1 e.2) }

/-- The checks of MU.SAVE and MU.LOAD at issue (R323). -/
def State.imageDesc (s : State) (a b : GReg) (w : Bool) : Option TensorDesc :=
  let v := (s.readG a).toNat
  let cwOk := match s.resolve s.cur (s.readG b) 8 with | some p => decide (p.dev = s.devNum) | none => false
  if cwOk && decide (nf v 16 48 % 64 = 0) then s.descEnd v imageBytes w else none

/-- The descriptor of a save or load: the one latched at its issue, where its release has waited (R42, R323). -/
def State.latchedImage (s : State) (a b : GReg) (w : Bool) : Option TensorDesc :=
  match s.me.latched with
  | some (.command _ src _ _) => src
  | _ => s.imageDesc a b w

/-- MU.SAVE and MU.LOAD (R323). -/
def State.muImage (s : State) (a b : GReg) (u : BitVec 1) (save : Bool) : Out :=
  s.muCommand u (fun x => decide (x.st ≠ .stopped) || (s.latchedImage a b save).isNone) (fun p _ =>
    match s.latchedImage a b save with
    | none => .trap s.command
    | some d => (s.releasing .device (fun t =>
        let v := (t.readG a).toNat
        let va := d.vbase + nf v 16 48
        let n := nf v 0 6
        let job := if save then PressBusy.save t.cur n d.pages va (t.readG b) else .load t.cur n d.pages va (t.readG b)
        .ok (t.updPress p (fun x => { x with busy := some job })) 8)).holding (.command [] (some d) none true))

/-- MU.SAVE. -/
def execMuSave (a b : GReg) (u : BitVec 1) (s : State) : Out := s.muImage a b u true
/-- MU.LOAD. -/
def execMuLoad (a b : GReg) (u : BitVec 1) (s : State) : Out := s.muImage a b u false

/-- The completion word of a save or load: STATUS, SEQ 0; its CH and COUNT are free values (R287, R323; log entry 29). -/
def State.imageDone (s : State) (p unit : Nat) (cw : W64) (status : Nat) : State :=
  let f := s.fresh
  let t := f.2.updPress p (fun x => { x with busy := none })
  let v := cwWord status (f.1.toNat % 8) 0 (f.1.toNat / 2 ^ 32)
  match t.resolve unit cw 8 with
  | some q => t.checkedPut q 8 v
  | none => t

/-- The context of a press written through translations (R323 to R325); the distributor's pre-emption does the same (R326). -/
def State.saveContext (s : State) (p : Nat) (pages : List PageTr) (va : Nat) : Except Nat State :=
  match s.pagesWrite pages va (pressImage s p) with
  | .error a => .error a
  | .ok t =>
    let rows := (s.pressAt p).planeRows
    .ok { t.updPress p (fun x => { x with y := [], q := [], held := [] }) with
      vault := if t.vault.contains rows then t.vault else t.vault ++ [rows] }

/-- What a load of a context finds: the state and its status, or an unmapped address. -/
def State.loadContext (s : State) (p : Nat) (pages : List PageTr) (va : Nat) : Except Nat (State × Nat) :=
  match s.pagesRead pages va imageBytes with
  | .unmapped a => .error a
  | .error key => .ok (s.memError key, 0x10)
  | .ok bs =>
    let w := imgNum bs 0 8
    if nf w 0 8 ≠ s.devNum ∨ nf w 8 7 ≠ pressCluster p ∨ nf w 16 1 ≠ p % 2 then .ok (s, 0x18)
    else
      let region := (bs.drop 0x48000).take 0x40000
      let known := s.vault.find? (fun r => decide (planeRegion r = region))
      let rows := known.getD (freeRows (s.freeCtr + 8))
      let seq := fun k => (s.pressAt p).armSeq + 8 * ((Config.freeValue (s.freeCtr + k)).toNat % 2 ^ 16) + k
      let pushed := fun h => decide ((s.buf (tileRef h).cl (tileRef h).b).state = .held)
      .ok ({ (s.cleanRows p 0 0 512).updPress p (fun x => x.fromImage bs rows seq pushed) with freeCtr := s.freeCtr + 8 + 512 * 64 }, 1)

/-- A row of a plane of the press is in error, as its key (R321, R498). -/
def State.planeBad (s : State) (p : Nat) : Option Nat :=
  (s.poison.find? (fun g => decide (planeKey p 0 0 ≤ 8 * g) && decide (8 * g < planeKey p 2 0))).map (8 * ·)

/-- PRESS_CONTEXT_IMAGE_DONE: a save or load of a press takes place as a whole, and its completion word is written last (R323). A
save that meets an error in a plane writes no image (log entry 88). -/
def execPressContextImageDone (p : Nat) (s : State) : Out :=
  match (s.pressAt p).busy with
  | some (.save u _ pages va cw) => match s.planeBad p with
    | some key => .next ((s.memError key).imageDone p u cw 0x10)
    | none => match s.saveContext p pages va with
      | .error a => .fault (.unmappedPhysical a)
      | .ok t => .next (t.imageDone p u cw 1)
  | some (.load u _ pages va cw) => match s.loadContext p pages va with
    | .error a => .fault (.unmappedPhysical a)
    | .ok (t, st) => .next (t.imageDone p u cw st)
  | _ => .next s

end Sys2Proof.Machine
end

