-- ==== Sys2Proof/Machine/Distributor.lean ====
section
/-! DEFINITION. The distributor's queues, records, images, completions and cells (16_distributor.md R454 to R460, R465, R467 to
R473), the context image of a slot (R178, R179), and the DQ commands (R478, R479). -/
namespace Sys2Proof.Machine

/-! ### Work records (R457, R458) -/

def WorkRec.task (r : WorkRec) : Nat := r.field 0 64
def WorkRec.image (r : WorkRec) : Nat := r.field 64 57
def WorkRec.priv (r : WorkRec) : Bool := decide (r.field 121 1 = 1)
def WorkRec.preempt (r : WorkRec) : Bool := decide (r.field 122 1 = 1)
def WorkRec.runLate (r : WorkRec) : Bool := decide (r.field 123 1 = 1)
def WorkRec.shape (r : WorkRec) : Bool := decide (r.field 124 1 = 1)
def WorkRec.wait (r : WorkRec) : Bool := decide (r.field 125 1 = 1)
def WorkRec.argp (r : WorkRec) : Nat := r.field 128 57
def WorkRec.deadline (r : WorkRec) : Nat := r.field 192 64
def WorkRec.cpl (r : WorkRec) : Nat := r.field 256 57
def WorkRec.save (r : WorkRec) : Nat := r.field 320 57
def WorkRec.x0 (r : WorkRec) : Nat := r.field 384 4
def WorkRec.y0 (r : WorkRec) : Nat := r.field 388 4
def WorkRec.width (r : WorkRec) : Nat := r.field 392 4 + 1
def WorkRec.height (r : WorkRec) : Nat := r.field 396 3 + 1
def WorkRec.cmask (r : WorkRec) : Nat := r.field 400 16
def WorkRec.strands (r : WorkRec) : Nat := r.field 416 5
def WorkRec.press (r : WorkRec) : Nat := r.field 421 2
def WorkRec.tiles (r : WorkRec) : Nat := r.field 423 9
def WorkRec.lmem (r : WorkRec) : Nat := r.field 432 9
def WorkRec.spill (r : WorkRec) : Nat := r.field 441 7
def WorkRec.dim (r : WorkRec) (i : Nat) : Nat := r.field (448 + 32 * i) 32
def WorkRec.nom (r : WorkRec) (i : Nat) : Nat := r.field (544 + 32 * i) 32
def WorkRec.succ0 (r : WorkRec) : Nat := r.field 640 32
def WorkRec.succ1 (r : WorkRec) : Nat := r.field 672 32
def WorkRec.wcell (r : WorkRec) : Nat := r.field 704 32
def WorkRec.arg (r : WorkRec) (i : Nat) : W64 := w64 (r.field (768 + 64 * i) 64)

/-- A cell reference: valid, and within R458. -/
def refValid (v : Nat) : Bool := nb v 31
def refFits (v : Nat) : Bool := decide (nf v 0 16 % 8 = 0) && decide (nf v 16 11 < 1536) && decide (nf v 27 4 = 0)
def refCore (v : Nat) : Nat := nf v 16 11
def refKey (v : Nat) : Nat := localBase (refCore v) + nf v 0 16

/-- Clusters of the rectangle, in ascending number. -/
def WorkRec.clusters (r : WorkRec) : List Nat :=
  (List.range r.height).flatMap (fun j => (List.range r.width).map (fun i => 12 * (r.y0 + j) + r.x0 + i))

/-- The part set in the order of R467. -/
def WorkRec.parts (r : WorkRec) : List Nat := r.clusters.flatMap (fun cl => (onesAt r.cmask 16).map (fun i => 16 * cl + i))

/-- Presses held in each cluster (R465). -/
def WorkRec.mus (r : WorkRec) : List Nat :=
  if r.press = 2 then [0, 1] else if r.press = 1 then (if nf r.cmask 8 8 = 0 then [0] else [1]) else []
def WorkRec.presses (r : WorkRec) : List Nat := r.clusters.flatMap (fun cl => r.mus.map (fun m => pressNo cl m))

/-- Bytes of the save area (R476). -/
def WorkRec.saveBytes (r : WorkRec) : Nat := 0x19400 * r.parts.length + 0x88000 * r.presses.length

/-! ### Virtual memory as the distributor reaches it -/

/-- Pages of a virtual range that are all present and satisfy `ok`; a range that passes the end of the 57-bit space is not present
(R136; log entry 107). -/
def State.rangePages (s : State) (va len : Nat) (ok : PageInfo → Bool) : Option (List PageTr) :=
  if 2 ^ 57 < va + len then none
  else match s.pagesOf (len / 0x1000 + 2) va (va + len) with
  | some ps => if ps.all (fun p => ok p.2) then some (ps.map (·.1)) else none
  | none => none

/-- Bytes under translations; granules in error give their bytes, and are reported beside (log entry 37). -/
def State.rawPieces (s : State) (pages : List PageTr) : List (Nat × Nat) → Option (List Byte)
  | [] => some []
  | e :: es => match transIn pages e.1, s.rawPieces pages es with
    | some pa, some bs => if s.mapped pa then some (s.bytesAt pa e.2 ++ bs) else none
    | _, _ => none

/-- Bytes of a virtual range; none where a page is not present or does not satisfy `ok`. -/
def State.virtRead (s : State) (va n : Nat) (ok : PageInfo → Bool) : Option (List Byte) :=
  match s.rangePages va n ok with
  | some ps => s.rawPieces ps (linePieces (n / 64 + 2) va n)
  | none => none

/-- Keys of granules in error under translations. -/
def State.badPieces (s : State) (pages : List PageTr) (pieces : List (Nat × Nat)) : List Nat :=
  pieces.flatMap (fun e => match transIn pages e.1 with | some pa => s.badKey pa e.2 | none => [])

/-- What a read of a virtual range by the distributor reports: the errors of its walks and of its bytes (R498). -/
def State.virtReport (s : State) (va n : Nat) : State :=
  let t := s.walkedRanges [(va, n)]
  match s.rangePages va n (fun _ => true) with
  | some ps => t.report (s.badPieces ps (linePieces (n / 64 + 2) va n))
  | none => t

/-- Bytes written to a virtual range; none where a page is not present and writable. -/
def State.virtWrite (s : State) (va : Nat) (bs : List Byte) : Option State :=
  match s.rangePages va bs.length (fun p => p.w) with
  | some ps => match (s.walkedRanges [(va, bs.length)]).pagesWrite ps va bs with
    | .ok t => some t
    | .error _ => none
  | none => none

def inHbm (p : PageInfo) : Bool := !p.pool

/-! ### Launch images (R135, R136) -/

/-- A segment entry. -/
structure Segment where
  kind : Nat
  dest : Nat
  size : Nat
  file : Nat
deriving DecidableEq, Repr

/-- Header and segment entries of an image. -/
structure Image where
  magic : Nat
  entry : Nat
  segs  : List Segment
deriving DecidableEq, Repr

def segmentOf (v : Nat) : Segment := { kind := nf v 0 8, dest := nf v 32 32, size := nf v 64 32, file := nf v 96 32 }

/-- The image at a virtual address; none where header or entries cannot be read, or NSEG is outside 1 to 64. Bits that R135 gives
as 0 are not looked at (log entry 82). -/
def State.imageAt (s : State) (va : Nat) : Option Image :=
  match s.virtRead va 32 inHbm with
  | none => none
  | some h =>
    let v := leNat h
    let n := nf v 32 16
    if n = 0 ∨ 64 < n then none
    else match s.virtRead (va + 32) (16 * n) inHbm with
    | none => none
    | some e => some { magic := nf v 0 32, entry := nf v 64 32, segs := (chunksN 16 n e).map (fun c => segmentOf (leNat c)) }

/-- What the reading of an image's header and entries reports. -/
def State.imageReport (s : State) (va : Nat) : State :=
  match s.imageAt va with
  | none => s.virtReport va 32
  | some m => s.virtReport va (32 + 16 * m.segs.length)

/-- Size of the unit that a kind of segment goes to. -/
def unitSize (kind : Nat) : Nat := if kind = 3 then 0x600000 else 0x10000

/-- A segment that R136 refuses. -/
def Segment.bad (x : Segment) : Bool :=
  !(decide (1 ≤ x.kind) && decide (x.kind ≤ 3)) || decide (unitSize x.kind < x.dest + x.size) || decide (2 ^ 32 < x.file + x.size)

/-- Cause IMAGE (R459). -/
def State.imageBad (s : State) (r : WorkRec) : Bool :=
  match s.imageAt r.image with
  | none => true
  | some m =>
    decide (m.magic ≠ 0x14C4E) || m.segs.any Segment.bad || decide (m.entry = 0xFFFFFFFF)
      || m.segs.any (fun x => (s.rangePages (r.image + x.file) x.size inHbm).isNone)
      || (decide (r.press = 0) && m.segs.any (fun x => decide (x.kind = 2)))

/-! ### Admission checks (R459) -/

/-- The cell that a reference names is ARMED. -/
def State.cellArmed (s : State) (ref : Nat) : Bool := nb (s.numAt (refKey ref) 8) 32

/-- Cause LOCAL. -/
def State.localBad (s : State) (r : WorkRec) : Bool :=
  decide (256 < r.lmem) || (match s.imageAt r.image with
    | some m => m.segs.any (fun x => decide (x.kind = 1) && decide (r.lmem * 256 < x.dest + x.size))
    | none => false)

/-- Cause FORMAT. -/
def WorkRec.formatBad (r : WorkRec) : Bool :=
  [(126, 2), (185, 7), (313, 7), (377, 7), (399, 1), (736, 32)].any (fun e => decide (r.field e.1 e.2 ≠ 0))
    || [0, 1, 2].any (fun i => decide (r.dim i = 0) || decide (r.nom i = 0)) || decide (r.cpl % 32 ≠ 0)
    || [r.succ0, r.succ1, r.wcell].any (fun v => refValid v && !refFits v) || (r.shape && decide (r.argp % 64 ≠ 0))

/-- What the look at the cell of a WAIT record reports. -/
def State.cellReport (s : State) (r : WorkRec) : State :=
  if r.wait && refValid r.wcell && refFits r.wcell then s.readReport (refKey r.wcell) 8 else s

/-- Cause CELL. -/
def State.cellBad (s : State) (r : WorkRec) : Bool :=
  r.wait && (!refValid r.wcell || decide (r.parts ≠ [refCore r.wcell]) || (refFits r.wcell && s.cellArmed r.wcell))

/-- Cause SAVE. -/
def State.saveBad (s : State) (r : WorkRec) : Bool :=
  r.preempt && (decide (r.save % 4096 ≠ 0) || (s.rangePages r.save r.saveBytes (fun p => p.w && !p.pool)).isNone)

/-- The CAUSE mask of R459. -/
def State.causes (s : State) (r : WorkRec) (supok : Bool) : Nat :=
  let one (i : Nat) (b : Bool) : Nat := if b then 2 ^ i else 0
  one 0 (decide (r.strands = 0) || decide (16 < r.strands)) + one 1 (s.localBad r) + one 2 (decide (64 < r.spill))
    + one 3 (decide (384 < r.tiles))
    + one 4 (decide (r.press = 3) || (decide (r.press = 1) && decide (nf r.cmask 0 8 ≠ 0) && decide (nf r.cmask 8 8 ≠ 0)))
    + one 5 (decide (12 < r.x0 + r.width) || decide (8 < r.y0 + r.height) || decide (r.cmask = 0))
    + one 6 (s.imageBad r) + one 7 (s.saveBad r) + one 8 r.formatBad + one 9 (s.cellBad r) + one 11 (r.priv && !supok)

/-! ### Completion records and successors (R460, R473) -/

/-- The device time base in nanoseconds. -/
def State.ns (s : State) : Nat := s.time141 / 141

/-- Status codes of R460. -/
def cplDone : Nat := 1
def cplRejected : Nat := 2
def cplLate : Nat := 3
def cplFault : Nat := 4

/-- The completion record, if one is named and its page can be written (log entry 38). -/
def State.writeCpl (s : State) (r : WorkRec) (status cause count tbind : Nat) : State :=
  if r.cpl = 0 then s
  else
    let bs := leBytes 8 (status + cause % 2 ^ 16 * 2 ^ 16 + count % 2 ^ 32 * 2 ^ 32) ++ leBytes 8 r.task ++ leBytes 8 tbind
      ++ leBytes 8 s.ns
    match s.virtWrite r.cpl bs with
    | some t => t
    | none => s

/-- One successor's cell (R473). -/
def State.decSucc (s : State) (ref : Nat) (done : Bool) : State :=
  if refValid ref && refFits ref then
    let key := refKey ref
    let t := s.readReport key 8
    let v := s.numAt key 8
    if nf v 0 32 = 0 then t
    else
      let s1 := if done || nb v 33 then t else t.putNum key 8 (v + 2 ^ 33)
      match s1.decCell key with
      | some (_, t) => t
      | none => s1
  else s

/-- A task ends, or is decided without running: record, then SUCC0, then SUCC1 (R473). -/
def State.decideTask (s : State) (r : WorkRec) (status cause count tbind : Nat) : State :=
  let t := s.writeCpl r status cause count tbind
  (t.decSucc r.succ0 (decide (status = cplDone))).decSucc r.succ1 (decide (status = cplDone))

/-! ### Queues (R454, R455) -/

def State.queue (s : State) (q : Nat) : Queue := mget {} s.dist.queues q
def State.setQueue (s : State) (q : Nat) (x : Queue) : State :=
  { s with dist := { s.dist with queues := mset {} s.dist.queues q x } }

/-- Records pushed and not read. -/
def Queue.unread (x : Queue) : Nat := (x.tail - x.head).toNat

/-- The selected task came from a queue. -/
def State.selectedFrom (s : State) (q : Nat) : Bool :=
  match s.dist.selected with
  | some t => t.queue == q
  | none => false

/-- The queue that a record describes. -/
def queueOf (v : Nat) : Queue :=
  { conf := true, base := nf v 0 57, logn := nf v 64 5, prio := nf v 69 3, age := nf v 72 16, en := nb v 88, supok := nb v 89 }

/-- DQ.QCFG: status, or the queue (R275, R455; RANGE: log entry 36). -/
def State.makeQueue (s : State) (v q : Nat) : Except Nat Queue :=
  let x := queueOf v
  let old := s.queue q
  let len := 128 * 2 ^ x.logn
  if old.unread ≠ 0 ∨ old.adm.isSome ∨ s.selectedFrom q then .error 5
  else if nf v 0 64 % 4096 ≠ 0 ∨ !canonical (w64 v) ∨ x.logn < 4 ∨ 16 < x.logn ∨ nf v 90 422 ≠ 0 then .error 6
  else if 2 ^ 57 < x.base + len then .error 3
  else match s.translateRange x.base len false s.super with
    | .error e => .error e
    | .ok ps =>
      if ps.any (fun p => p.pool) then .error 2
      else if 16384 < (s.dist.queues.map (fun e => if e.1 = q then 0 else e.2.pages.length)).sum + ps.length then .error 4
      else .ok { x with pages := ps }

/-- DQ.QCFG (R455). -/
def execDqQcfg (d a b : GReg) (s : State) : Out :=
  let o := (s.readG a).toNat
  let q := (s.readG b).toNat
  onStrand s (s.needSuper (if o % 64 ≠ 0 ∨ 0x10000 ≤ o ∨ 63 < q then .trap s.command
    else
      let r := s.localRecord o
      let w := r.2.makeQueue r.1 q
      let t := r.2.afterWalks w [(nf r.1 0 57, 128 * 2 ^ nf r.1 64 5)]
      if r.2.bad (localBase s.cur + o) 64 then r.2.errorTrap (localBase s.cur + o) (meshError (w64 o))
      else match w with
      | .error e => .okWait (t.writeG d (w64 e)) 16
      | .ok x => .okWait ((t.setQueue q x).writeG d 0) (16 + 48 * x.pages.length)))

/-- A push of n records; none when the queue has no room (R478). -/
def State.pushQueue (s : State) (q n : Nat) : Option State :=
  let x := s.queue q
  if x.unread + n ≤ 2 ^ x.logn then some (s.setQueue q { x with tail := x.tail + w32 n }) else none

/-- DQ.PUSH (R456, R478). -/
def execDqPush (d a b : GReg) (s : State) : Out :=
  let q := (s.readG a).toNat
  let n := (s.readG b).toNat
  onStrand s (if 63 < q ∨ n = 0 ∨ 65536 < n ∨ !(s.queue q).conf then .trap s.command
    else s.releasing .device (fun t => match t.pushQueue q n with
      | some t' => t'.gives d 1 4
      | none => t.gives d 0 4))

/-- The level of a candidate: PRIO less one for each aging step of `ns` nanoseconds waited (R461). -/
def agedLevel (prio age ns : Nat) : Nat := if age = 0 then prio else prio - ns / (1000 * age)

/-- QCTL and QSTAT (R479). -/
def Queue.ctl (x : Queue) : Nat :=
  x.prio % 8 + b2n x.en * 8 + x.logn % 32 * 16 + b2n x.supok * 2 ^ 9 + b2n x.conf * 2 ^ 10 + x.age % 2 ^ 16 * 2 ^ 16
def State.qstat (s : State) (q : Nat) : Nat :=
  let x := s.queue q
  (match x.adm with | some (_, t) => agedLevel x.prio x.age (s.ns - t) % 8 | none => 0) + b2n x.adm.isSome * 8
    + b2n (s.selectedFrom q) * 16 + b2n x.parkw * 32

/-- Queue registers 0 to 5. -/
def State.queueReg (s : State) (q n : Nat) : Nat :=
  let x := s.queue q
  match n with
  | 0 => x.head.toNat
  | 1 => x.tail.toNat
  | 2 => x.ctl
  | 3 => s.qstat q
  | 4 => x.rejc.toNat
  | _ => x.latec.toNat

/-- DQ.QGET (R479). -/
def execDqQget (d a : GReg) (n : BitVec 3) (s : State) : Out :=
  let q := (s.readG a).toNat
  onStrand s (if 63 < q ∨ 5 < n.toNat then .trap s.command
    else (s.acquire s.cur s.slot .device).gives d (w64 (s.queueReg q n.toNat)) (16 + acqCost s.cur .device))

/-- DQ.PRIO (R463, R478). -/
def execDqPrio (a b : GReg) (s : State) : Out :=
  let q := (s.readG a).toNat
  let v := (s.readG b).toNat
  onStrand s (s.needSuper (if 63 < q ∨ 7 < v ∨ !(s.queue q).conf then .trap s.command
    else .ok (s.setQueue q { s.queue q with prio := v }) 8))

/-- DQ.QEN (R463, R478). -/
def execDqQen (a b : GReg) (s : State) : Out :=
  let q := (s.readG a).toNat
  let v := (s.readG b).toNat
  onStrand s (s.needSuper (if 63 < q ∨ 1 < v ∨ !(s.queue q).conf then .trap s.command
    else .ok (s.setQueue q { s.queue q with en := decide (v = 1) }) 8))

/-! ### Context images of slots (R178, R179) -/

/-- A handle as an image holds it. -/
def handleBytes (h : Handle) : List Byte :=
  leBytes 8 h.vbase.toNat ++ leBytes 8 h.pbase.toNat ++ leBytes 8 h.span.toNat
    ++ leBytes 8 (b2n h.v + b2n h.w * 2 + b2n h.pool * 4 + (match h.psz with | .p4k => 0 | .p2m => 1 | .p1g => 2) * 8)

/-- A bank: general registers, handles, control values. -/
def bankBytes (b : Bank) (fb : Nat) : List Byte :=
  (List.range 32).flatMap (fun i => leBytes 8 (b.readG (BitVec.ofNat 5 i)).toNat)
    ++ (List.range 16).flatMap (fun i => handleBytes (mget {} b.h i))
    ++ [b.pc.toNat, fb, b.k.toNat, b.fps.toNat, b.estat.toNat, b.epc.toNat, b.ecause.toNat, b.eval.toNat, b.evec.toNat,
        b.escr0.toNat, b.escr1.toNat, b.escr2.toNat, b.escr3.toNat].flatMap (leBytes 8)
    ++ leBytes 24 0

/-- The context image of a slot: 2,368 bytes. -/
def slotImage (x : Slot) : List Byte :=
  bankBytes x.b0 x.fb.toNat ++ bankBytes x.b1 0 ++ leBytes 8 (slotst x).toNat ++ leBytes 8 x.pfvec.toNat ++ leBytes 48 0
    ++ (List.range 64).flatMap (fun i => leBytes 8 (mget 0 x.spill (8 * i)).toNat)

/-- A handle from an image: V is clear (R179). -/
def handleFrom (bs : List Byte) (o : Nat) : Handle :=
  let w := imgNum bs (o + 24) 8
  { v := false, w := nb w 1, pool := nb w 2, psz := if nf w 3 2 = 1 then .p2m else if nf w 3 2 = 2 then .p1g else .p4k, rd := false,
    vbase := w64 (imgNum bs o 8), pbase := w64 (imgNum bs (o + 8) 8), span := w64 (imgNum bs (o + 16) 8) }

/-- A bank from an image; bits that do not exist in a register are not loaded from it (R141, R163 to R165; log entry 83). -/
def bankFrom (bs : List Byte) (o : Nat) : Bank :=
  let v (i : Nat) := imgNum bs (o + 0x300 + 8 * i) 8
  { g := (List.range 32).foldl (fun m i => if i = 0 then m else mset 0 m i (w64 (imgNum bs (o + 8 * i) 8))) []
    h := (List.range 16).foldl (fun m i => mset {} m i (handleFrom bs (o + 0x100 + 32 * i))) []
    k := BitVec.ofNat 8 (v 2), pc := BitVec.ofNat 16 (v 0) &&& 0xFFFC, fps := w32 (v 3) &&& 0x31F, estat := w32 (v 4) &&& 7
    epc := w32 (v 5) &&& 0xFFFC, ecause := w32 (v 6) &&& 0x3FFF, eval := w64 (v 7), evec := w32 (v 8) &&& 0xFFFC, escr0 := w64 (v 9), escr1 := w64 (v 10), escr2 := w64 (v 11)
    escr3 := w64 (v 12) }

/-- The slot that an image describes: in RUN, its fetch buffer empty (R179). FB is judged as a write of it is (R163; log entry
83). -/
def slotFrom (bs : List Byte) (now : Nat) : Slot :=
  let st := imgNum bs 0x700 8
  let fb := imgNum bs 0x308 8 / 8 % 128 * 8
  { st := .run, bank := nb st 2, pfp := nb st 3, pfvec := w32 (imgNum bs 0x708 8) &&& 0xFFFC, b0 := bankFrom bs 0, b1 := bankFrom bs 0x380
    fb := if fb ≤ 512 then BitVec.ofNat 10 fb else 0
    spill := (List.range 64).foldl (fun m i => mset 0 m (8 * i) (w64 (imgNum bs (0x740 + 8 * i) 8))) [], readyAt := now }

/-! ### Stops and drains of cores (R85, R177, R291) -/

/-- Slots of a core that are not FREE. -/
def State.liveSlots (s : State) (u : Nat) : List Nat :=
  (s.core u).slots.filterMap (fun e => if e.2.st = .free then none else some e.1)

/-- A release of the whole core: every dirty line at its home, oldest first, and every posted store landed (R62, R85). -/
def State.drainCore (s : State) (u : Nat) : State :=
  let s1 := ((s.core u).fifo.filter FifoEntry.isLine).foldl (fun (t : State) _ => t.writeOldest u) s
  let s2 := s1.updCore u (fun c => { c with fifo := [] })
  (s2.posted.filter (fun p => p.unit == u)).foldl State.land { s2 with posted := s2.posted.filter (fun p => !(p.unit == u)) }

/-- A press image that a strand of core `u` has asked for is under way. -/
def busyFor (x : Press) (u : Nat) : Bool :=
  match x.busy with
  | some (.save v _ _ _ _) => v == u
  | some (.load v _ _ _ _) => v == u
  | _ => false

/-- A posted store of the core to another device is not acknowledged yet. -/
def State.awaitsDevice (s : State) (u : Nat) : Bool :=
  s.posted.any (fun p => p.unit == u && (match p.dest with | .device _ _ => true | _ => false))

/-- Every operation that strands of a core issued has completed: copies, fabric commands, Splice commands, press images, stores to
other devices (R291, R410, R434). -/
def State.opsDone (s : State) (u : Nat) : Bool :=
  let cl := clusterOf u
  !((s.cluster cl).chans.any (fun e => e.2.queue.any (fun k => k.unit == u)))
    && (s.core u).fab.all (fun e => e.2.queue.isEmpty)
    && !(s.splice.queue.any (fun k => k.unit == u))
    && !([0, 1].any (fun m => busyFor (s.pressAt (pressNo cl m)) u)) && !s.awaitsDevice u

end Sys2Proof.Machine
end

