-- ==== Sys2Proof/Machine/DistEvents.lean ====
section
/-! DEFINITION. The distributor at work (16_distributor.md R459 to R477): admission, parking and run lists, selection, binding with
shape records, ends of parts and tasks, pre-emption and restore. An event whose condition does not hold changes nothing. -/
namespace Sys2Proof.Machine

def State.updDist (s : State) (f : Dist → Dist) : State := { s with dist := f s.dist }

/-- A counter of a queue that holds at its largest value: REJC, LATEC. -/
def State.countRej (s : State) (q : Nat) : State := s.setQueue q { s.queue q with rejc := satInc (s.queue q).rejc }
def State.countLate (s : State) (q : Nat) : State := s.setQueue q { s.queue q with latec := satInc (s.queue q).latec }

/-! ### Admission (R459, R471) -/

/-- Record `n` of a queue, read through the translations that the distributor holds (R454, R455). -/
def State.readRecord (s : State) (x : Queue) (n : Nat) : Option WorkRec :=
  let va := x.base + 128 * (n % 2 ^ x.logn)
  (s.rawPieces x.pages (linePieces 4 va 128)).map (fun bs => { words := (chunksN 8 16 bs).map (fun c => w64 (leNat c)) })

/-- What the reading of record `n` of a queue reports. -/
def State.recordReport (s : State) (x : Queue) (n : Nat) : State :=
  s.report (s.badPieces x.pages (linePieces 4 (x.base + 128 * (n % 2 ^ x.logn)) 128))

/-- The head record has been read. -/
def State.headRead (s : State) (q : Nat) : State := s.setQueue q { s.queue q with head := (s.queue q).head + 1, parkw := false }

/-- The lowest free entry of the parked-task table (R470). -/
def State.freeEntry (s : State) : Option Nat := lowest 4096 (fun i => !(s.dist.parked.any (fun e => e.1 == i)))

/-- A WAIT record parks: the cell is armed, or its task is ready at once when the count is 0 already (R471). -/
def State.park (s : State) (r : WorkRec) (q n : Nat) : State :=
  let key := refKey r.wcell
  let v := s.numAt key 8
  let t : Task := { key := s.dist.nextKey, rec_ := r, queue := q }
  let s1 := (s.readReport key 8).updDist (fun d => { d with parked := mins (merase d.parked n) n t, nextKey := d.nextKey + 1 })
  if nf v 0 32 = 0 then (s1.putNum key 8 0).makeReady n (nb v 33)
  else s1.putNum key 8 (nf v 0 32 + 2 ^ 32 + b2n (nb v 33) * 2 ^ 33 + n * 2 ^ 34)

/-- RECORD_ADMIT. -/
def execRecordAdmit (q : Nat) (s : State) : Out :=
  let x := s.queue q
  if !s.alive || !x.conf || !x.en || decide (x.unread = 0) || x.adm.isSome then .next s
  else match s.readRecord x x.head.toNat with
  | none => .fault (.unmappedPhysical x.base)
  | some r =>
    if r.wait && s.freeEntry.isNone then .next (s.setQueue q { x with parkw := true })
    else
      let cause := s.causes r x.supok
      let t := (((s.recordReport x x.head.toNat).imageReport r.image).cellReport r).headRead q
      if cause ≠ 0 then .next ((t.countRej q).decideTask r cplRejected cause 0 0)
      else if r.wait then .next (match t.freeEntry with | some n => t.park r q n | none => t)
      else .next (t.setQueue q { t.queue q with adm := some (r, s.ns) })

/-! ### Run lists (R472) -/

def Dist.runList (d : Dist) (u : Nat) : List (Nat × Task) := mget [] d.runLists u

/-- A ready task that is discarded: a predecessor did not run, and the record does not ask to run late. -/
def Task.inherits (t : Task) : Bool := t.disc && !t.rec_.runLate

/-- Ready entries whose home core is `u`, in the order in which they became ready. -/
def State.readyAt (s : State) (u : Nat) : List (Nat × Task) :=
  s.dist.ready.filterMap (fun n => match s.dist.parked.find? (fun e => e.1 == n) with
    | some (_, t) => if refCore t.rec_.wcell = u then some (n, t) else none
    | none => none)

/-- An entry of the parked-task table is free again; PARKW clears (R459). -/
def State.freeParked (s : State) (n : Nat) : State :=
  s.updDist (fun d => { d with
    parked := merase d.parked n, ready := d.ready.filter (fun m => m != n)
    queues := d.queues.map (fun e => (e.1, { e.2 with parkw := false })) })

/-- RUN_LIST_JOIN: a ready task leaves the table: it is discarded, or joins the run list of its home core. -/
def execRunListJoin (core : Nat) (s : State) : Out :=
  match (s.readyAt core).find? (fun e => e.2.inherits) with
  | some (n, t) => .next (((s.freeParked n).countLate t.queue).decideTask t.rec_ cplLate 4 0 0)
  | none => match s.readyAt core with
    | [] => .next s
    | (n, t) :: _ =>
      if 16 ≤ (s.dist.runList core).length then .next s
      else .next ((s.freeParked n).updDist (fun d => { d with
        runLists := mset [] d.runLists core (d.runList core ++ [(d.joins, { t with since := s.ns })]), joins := d.joins + 1 }))

/-! ### Selection (R461 to R464) -/

/-- A candidate with its level, its kind in the order of R462, and its place among candidates of its kind. -/
structure Cand where
  level : Nat
  kind  : Nat
  place : Nat
  task  : Task
  from_ : Nat

def State.restoreCands (s : State) : List Cand :=
  s.dist.preempted.zipIdx.map (fun e =>
    { level := agedLevel e.1.level (s.queue e.1.queue).age (s.ns - e.1.since), kind := 0, place := e.2, task := e.1, from_ := 0 })

def State.runCands (s : State) : List Cand :=
  s.dist.runLists.filterMap (fun e => match e.2 with
    | [] => none
    | (j, t) :: _ =>
      let q := s.queue t.queue
      some { level := agedLevel q.prio q.age (s.ns - t.since), kind := 1, place := j, task := t, from_ := e.1 })

def State.headCands (s : State) : List Cand :=
  s.dist.queues.filterMap (fun e => match e.2.adm with
    | some (r, since) =>
      if e.2.en then
        let l := agedLevel e.2.prio e.2.age (s.ns - since)
        let t : Task := { key := s.dist.nextKey, rec_ := r, queue := e.1, since := since }
        some { level := l, kind := 2, place := (e.1 + 64 - mget 0 s.dist.rr l % 64) % 64, task := t, from_ := e.1 }
      else none
    | none => none)

/-- The first of two candidates (R462). -/
def Cand.before (a b : Cand) : Bool :=
  decide (a.level < b.level) || (decide (a.level = b.level) &&
    (decide (a.kind < b.kind) || (decide (a.kind = b.kind) && decide (a.place < b.place))))

def bestCand : List Cand → Option Cand
  | [] => none
  | c :: cs => match bestCand cs with
    | none => some c
    | some b => if b.before c then some b else some c

/-- The candidate leaves where it waited. -/
def State.takeCand (s : State) (c : Cand) : State :=
  if c.kind = 0 then s.updDist (fun d => { d with preempted := d.preempted.filter (fun t => t.key != c.task.key) })
  else if c.kind = 1 then s.updDist (fun d => { d with runLists := mset [] d.runLists c.from_ (d.runList c.from_).tail })
  else (s.setQueue c.from_ { s.queue c.from_ with adm := none }).updDist (fun d => { d with
    nextKey := d.nextKey + 1, rr := mset 0 d.rr c.level ((c.from_ + 1) % 64) })

/-- TASK_SELECT. -/
def execTaskSelect (s : State) : Out :=
  if !s.alive || s.dist.selected.isSome then .next s
  else match bestCand (s.restoreCands ++ s.runCands ++ s.headCands) with
  | none => .next s
  | some c =>
    let t := s.takeCand c
    let r := c.task.rec_
    if c.kind ≠ 0 ∧ r.deadline ≠ 0 ∧ r.deadline ≤ s.ns then .next ((t.countLate c.task.queue).decideTask r cplLate 1 0 0)
    else .next (t.updDist (fun d => { d with selected := some { c.task with level := c.level }, restoring := decide (c.kind = 0) }))

/-! ### What a task holds (R465) -/

/-- The task holds a reservation in a cluster: bound, pre-empted, or selected for restore. -/
def State.reservers (s : State) : List Task :=
  s.dist.bound ++ s.dist.preempted ++ (match s.dist.selected with | some t => if s.dist.restoring then [t] else [] | none => [])

/-- Buffers reserved in a cluster. -/
def State.reserved (s : State) (cl : Nat) : Nat :=
  ((s.reservers.filter (fun t => t.rec_.clusters.contains cl)).map (fun t => t.rec_.tiles)).sum

/-- No part is bound to a core, and every slot of it is FREE (R465). A task awaiting restore takes its cores and presses again even
where they have been removed: they serve it to its end (R494). -/
def State.coreIdle (s : State) (u : Nat) : Bool := decide ((s.core u).task = none) && (s.liveSlots u).isEmpty
/-- No task holds a press, and it is STOPPED (R465). -/
def State.pressIdle (s : State) (p : Nat) : Bool :=
  decide ((s.pressAt p).st = .stopped) && !(s.dist.bound.any (fun t => t.presses.contains p))

/-- A core is free: idle and not removed (R465, R494). -/
def State.coreFree (s : State) (u : Nat) : Bool := s.coreIdle u && !s.mgmt.remCores.contains u
/-- A press is free (R465, R494). -/
def State.pressFree (s : State) (p : Nat) : Bool := s.pressIdle p && !s.mgmt.remPress.contains p

/-- The cluster has room for a new task's tiles, and is not degraded (R465, R494). -/
def State.roomFor (s : State) (r : WorkRec) (cl : Nat) : Bool :=
  decide (s.reserved cl + r.tiles ≤ 384) && !s.mgmt.remClusters.contains cl

/-! ### Shape records (R468, R469) -/

/-- Tiles of a group. -/
def tilesOf (rows trows : Nat) : Nat := if trows = 0 then 0 else (rows + trows - 1) / trows

/-- What the patch writes into the entries of a shape record: RBASE, TOFF, TILES of each. -/
def shapeEntries (trows : Nat) : List Nat → Nat → Nat → List Byte
  | [], _, _ => []
  | n :: ns, rbase, toff =>
    leBytes 4 rbase ++ leBytes 4 toff ++ leBytes 4 (tilesOf n trows)
      ++ shapeEntries trows ns (rbase + n) (toff + tilesOf n trows)

/-- `n` bytes at offset `o` of each of the `ng` entries. -/
def entryPieces (va ng o n : Nat) : List (Nat × Nat) := (List.range ng).map (fun g => (va + 64 + 16 * g + o, n))

/-- The rows of a shape record whose header has been read, patched: TOTAL, or none where the patch fails, which writes nothing. The
fields ROWS alone are read, the patched fields alone written (R468, R469). -/
def State.patchEntries (s : State) (va ng trows : Nat) : Option Nat × State :=
  let t := s.walkedRanges [(va + 64, 16 * ng)]
  match s.rangePages va (64 + 16 * ng) (fun p => p.w) with
  | none => (none, t)
  | some ps =>
    let t1 := t.report (s.badPieces ps (entryPieces va ng 0 4))
    match s.rawPieces ps (entryPieces va ng 0 4) with
    | none => (none, t1)
    | some e =>
      let rows := (chunksN 4 ng e).map leNat
      let total := (rows.map (fun n => tilesOf n trows)).sum
      let rtotal := rows.sum
      if 2 ^ 32 ≤ total ∨ 2 ^ 32 ≤ rtotal then (none, t1)
      else match t1.piecesWrite ps (entryPieces va ng 4 12 ++ [(va + 8, 16)])
          (shapeEntries trows rows 0 0 ++ leBytes 4 total ++ leBytes 4 rtotal ++ leBytes 8 0) with
      | .error _ => (none, t1)
      | .ok t2 => (some total, t2)

/-- The patch of a shape record, of whose header bits [191:0] are read (R468, R469). -/
def State.patchShape (s0 : State) (va : Nat) : Option Nat × State :=
  let s := s0.virtReport va 24
  match s.virtRead va 24 (fun p => p.w) with
  | none => (none, s)
  | some h =>
    let v := leNat h
    let ng := nf v 0 7
    let trows := nf v 16 16
    if ng = 0 ∨ 64 < ng ∨ trows = 0 ∨ nf v 7 9 ≠ 0 ∨ nf v 32 32 ≠ 0 then (none, s) else s.patchEntries va ng trows

/-! ### Binding (R466, R467) -/

/-- Tiles along dimension `i`. -/
def WorkRec.tilesAlong (r : WorkRec) (i : Nat) : Nat := (r.dim i + r.nom i - 1) / r.nom i

/-- Tile coordinate `i` of part `p`. -/
def WorkRec.coord (r : WorkRec) (p i : Nat) : Nat :=
  let t0 := r.tilesAlong 0
  let t1 := r.tilesAlong 1
  if i = 0 then p % t0 else if i = 1 then p / t0 % t1 else p / (t0 * t1)

/-- ORG and EXT of part `p` in dimension `i` (R467). -/
def WorkRec.sub (r : WorkRec) (p i : Nat) : Nat × Nat :=
  if p < r.tilesAlong 0 * r.tilesAlong 1 * r.tilesAlong 2 then
    let org := r.coord p i * r.nom i
    (org, min (r.nom i) (r.dim i - org))
  else (r.dim i, 0)

/-- Identity registers of part `p` on core `u` (R158, R467). -/
def State.identOf (s : State) (r : WorkRec) (u p : Nat) : Map W64 :=
  let cl := clusterOf u
  let w (v : Nat) := w64 (v % 2 ^ 32)
  let rows : List (Nat × W64) :=
    [(0, w64 s.devNum), (1, w64 (cl + colOf cl * 2 ^ 8 + rowOf cl * 2 ^ 12 + stackOf u * 2 ^ 16)), (2, w64 u), (4, w64 r.task)]
      ++ (List.range 3).map (fun i => (5 + i, w (r.sub p i).1)) ++ (List.range 3).map (fun i => (8 + i, w (r.sub p i).2))
      ++ (List.range 3).map (fun i => (11 + i, w (r.nom i))) ++ [(14, w64 r.argp), (15, w64 r.deadline)]
  rows.foldl (fun m e => mset 0 m e.1 e.2) []

/-- The contents of the segments of one kind: destination offset and bytes; none where a page is not there. -/
def State.contents (s : State) (r : WorkRec) (segs : List Segment) (kind : Nat) : Option (List (Nat × List Byte)) :=
  (segs.filter (fun x => x.kind == kind)).mapM (fun x => (s.virtRead (r.image + x.file) x.size inHbm).map (fun bs => (x.dest, bs)))

/-- Segments placed in the unit whose first byte has a key. -/
def State.place (s : State) (base : Nat) (xs : List (Nat × List Byte)) : State :=
  xs.foldl (fun (t : State) e => t.put (base + e.1) e.2) s

/-- A core gets its part: identity registers, acquire, slot 0 (R154, R155, R466). Slot 0 starts at the low 16 bits of ENTRY with
bits [1:0] clear (R141): no rule refuses a larger or an odd ENTRY (log entry 82). -/
def State.startPart (s : State) (k : Nat) (r : WorkRec) (entry u p now : Nat) : State :=
  let s1 := s.updCore u (fun c => { c with ident := s.identOf r u p, task := some k, ended := false })
  let b := withArgs {} [r.arg 0, r.arg 1, r.arg 2, r.arg 3]
  (s1.acquire u 0 .device).setSlot u 0 (freshSlot now (s1.slotOf u 0).acqMark (BitVec.ofNat 16 entry &&& 0xFFFC#16) r.priv b)

/-- Cycles of a binding (R466). -/
def bindCycles (r : WorkRec) (segs : List Segment) : Nat :=
  let size (kind : Nat) := ((segs.filter (fun x => x.kind == kind)).map (fun x => x.size)).sum
  1088 + (size 1 + size 2 * r.press + size 3 + 63) / 64

/-- The task placed on its cores, presses and clusters. -/
def State.bindAll (s : State) (t : Task) (m : Image) (loc prs scr : List (Nat × List Byte)) : State :=
  let r := t.rec_
  let s1 := r.parts.foldl (fun (x : State) u => (x.zero (localBase u) 0x10000).place (localBase u) loc) s
  let s2 := r.presses.foldl (fun (x : State) p => x.place (imemBase p) prs) s1
  let s3 := r.clusters.foldl (fun (x : State) cl => x.place (padBase cl) scr) s2
  let now := s.cycle + bindCycles r m.segs
  let s4 := r.parts.zipIdx.foldl (fun (x : State) e => x.startPart t.key r m.entry e.1 e.2 now) s3
  s4.updDist (fun d => { d with
    selected := none, bound := d.bound ++ [{ t with tbind := s.ns, parts := r.parts, presses := r.presses, reported := [] }] })

/-- The selected task is decided without being bound. -/
def State.dropSelected (s : State) (r : WorkRec) (status cause : Nat) : State :=
  (s.updDist (fun d => { d with selected := none })).decideTask r status cause 0 0

/-- The placing of a task whose image passes the checks of R136 still; otherwise the record is rejected with cause IMAGE (log
entry 38). -/
def State.bindTask (s : State) (t : Task) : State :=
  let r := t.rec_
  match if s.imageBad r then none else s.imageAt r.image with
  | none => (s.countRej t.queue).dropSelected r cplRejected 64
  | some m => match s.contents r m.segs 1, s.contents r m.segs 2, s.contents r m.segs 3 with
    | some a, some b, some c =>
      (m.segs.foldl (fun (x : State) e => x.virtReport (r.image + e.file) e.size) (s.imageReport r.image)).bindAll t m a b c
    | _, _, _ => (s.countRej t.queue).dropSelected r cplRejected 64

/-- The selected task has all that it needs. -/
def State.canBind (s : State) (r : WorkRec) : Bool :=
  r.parts.all s.coreFree && r.presses.all s.pressFree && r.clusters.all (s.roomFor r)

/-- TASK_BIND. -/
def execTaskBind (s : State) : Out :=
  match s.dist.selected with
  | none => .next s
  | some t =>
    let r := t.rec_
    if s.dist.restoring || !s.canBind r then .next s
    else if r.deadline ≠ 0 ∧ r.deadline ≤ s.ns then .next ((s.countLate t.queue).dropSelected r cplLate 2)
    else if r.shape then match s.patchShape r.argp with
      | (none, s1) => .next ((s1.countRej t.queue).dropSelected r cplRejected 1024)
      | (some 0, s1) => .next (s1.dropSelected r cplDone 0)
      | (some _, s1) => .next (s1.bindTask t)
    else .next (s.bindTask t)

/-! ### Ends (R157, R291, R474) -/

def State.boundTask (s : State) (k : Nat) : Option Task := s.dist.bound.find? (fun t => t.key == k)

/-- Descriptors that a task created in a cluster are freed (R276). -/
def State.freeDescs (s : State) (cl k : Nat) : State :=
  s.updCluster cl (fun c => { c with descs := c.descs.filter (fun e => decide (e.2.task ≠ some k)) })

/-- PART_END_REPORT: a core whose part has ended reports once every operation of the part has completed. -/
def execPartEndReport (u : Nat) (s : State) : Out :=
  let c := s.core u
  match c.task with
  | none => .next s
  | some k => match s.boundTask k with
    | none => .next s
    | some t =>
      if !c.ended || !s.opsDone u then .next s
      else
        let t' := { t with reported := t.reported ++ [u] }
        let s1 := (s.drainCore u).updCore u (fun c => { c with ended := false })
        let s2 := s1.updDist (fun d => { d with bound := d.bound.map (fun x => if x.key = k then t' else x) })
        let whole := t.parts.all (fun v => decide (clusterOf v ≠ clusterOf u) || t'.reported.contains v)
        .next (if whole then s2.freeDescs (clusterOf u) k else s2)

/-- Every part has reported. -/
def Task.over (t : Task) : Bool := t.parts.all (fun u => t.reported.contains u)

/-- A held press is STOPPED or in FAULT. -/
def State.pressesIdle (s : State) (t : Task) : Bool := t.presses.all (fun p => !(s.pressAt p).running)
def State.stopPresses (s : State) (t : Task) : State := t.presses.foldl (fun (x : State) p => x.updPress p Press.requestStop) s

/-- A press reset as MU.RESET resets it. -/
def State.resetPress (s : State) (p : Nat) : State :=
  let x := s.pressAt p
  ((s.setPress p (x.wiped p)).releaseAll x.handles).1

/-- Cores, presses and reservation of a task are free. -/
def State.freeTask (s : State) (t : Task) : State :=
  let s1 := t.parts.foldl (fun (x : State) u => x.updCore u (fun c => { c with task := none, ended := false, stopping := false })) s
  s1.updDist (fun d => { d with
    bound := d.bound.filter (fun x => x.key != t.key), stopping := d.stopping.filter (fun x => x != t.key)
    halted := d.halted.filter (fun e => e.1 != t.key) })

/-- TASK_END: the held presses are stopped, then reset; the task ends with DONE. -/
def execTaskEnd (key : Nat) (s : State) : Out :=
  match s.boundTask key with
  | none => .next s
  | some t =>
    if !t.over || t.parts.isEmpty then .next s
    else if !s.pressesIdle t then .next (s.stopPresses t)
    else
      let s1 := t.presses.foldl State.resetPress s
      .next ((s1.freeTask t).decideTask t.rec_ cplDone 0 t.parts.length t.tbind)

/-- Every slot of a task stops at its next boundary (R176, R474, R476). -/
def State.haltTask (s : State) (t : Task) : State := t.parts.foldl State.haltCore s

/-- Every slot of a core FREE. -/
def State.clearCore (s : State) (u : Nat) : State :=
  s.updCore u (fun c => { c with slots := c.slots.map (fun e => (e.1, e.2.freed)), fifo := [], ended := false })

/-- The held presses that no copy and no context image keeps busy, and that have not been reset yet, are reset (R320, R474). -/
def State.toReset (s : State) (t : Task) : List Nat :=
  t.presses.filter (fun p => !t.wiped.contains p && !(s.pressAt p).isBusy s.cycle)
def State.resetPresses (s : State) (t : Task) : State :=
  ((s.toReset t).foldl State.resetPress s).updDist (fun d => { d with
    bound := d.bound.map (fun x => if x.key = t.key then { x with wiped := x.wiped ++ s.toReset t } else x) })

/-- TASK_FAULT_END (R474): a slot of the task is in HALT; every other slot stops, then the presses stop and each is reset once,
operations complete, nothing is saved, the task ends with FAULT. -/
def execTaskFaultEnd (key : Nat) (s : State) : Out :=
  match s.boundTask key, s.dist.halted.find? (fun e => e.1 == key) with
  | some t, some (_, u) =>
    let s1 := s.haltTask t
    if !t.parts.all s1.atRest then .next s1
    else if !s1.pressesIdle t then .next (s1.stopPresses t)
    else
      let s2 := s1.resetPresses t
      if !t.parts.all s2.opsDone || !t.presses.all (fun p => t.wiped.contains p || (s1.toReset t).contains p) then .next s2
      else
        let s3 := t.parts.foldl (fun (x : State) v => (x.drainCore v).clearCore v) s2
        let s4 := t.rec_.clusters.foldl (fun (x : State) cl => x.freeDescs cl key) s3
        .next ((s4.freeTask t).decideTask t.rec_ cplFault 0 u t.tbind)
  | _, _ => .next s

/-! ### Pre-emption and restore (R475 to R477) -/

/-- The presses that the selected task needs. -/
def Task.needPresses (t : Task) (restoring : Bool) : List Nat := if restoring then t.presses else t.rec_.presses

/-- Bound tasks that hold something the selected task needs, those that have ended left aside. -/
def State.blockers (s : State) (t : Task) : List Task :=
  let r := t.rec_
  let tight := if s.dist.restoring then [] else r.clusters.filter (fun cl => decide (384 < s.reserved cl + r.tiles))
  s.dist.bound.filter (fun b => !b.over && (b.parts.any (fun u => r.parts.contains u)
    || b.presses.any (fun p => (t.needPresses s.dist.restoring).contains p)
    || (decide (b.rec_.tiles ≠ 0) && b.rec_.clusters.any (fun cl => tight.contains cl))))

/-- A core is the home core of an ARMED cell. -/
def State.armedHome (s : State) (u : Nat) : Bool :=
  s.dist.parked.any (fun e => !s.dist.ready.contains e.1 && decide (refCore e.2.rec_.wcell = u))

/-- A task may be pre-empted for a task of level `l` (R475). -/
def State.mayPreempt (s : State) (l : Nat) (b : Task) : Bool :=
  b.rec_.preempt && decide (l < b.level) && !(b.parts.any s.armedHome)

/-- The save area of part `p`, of slot `i` in it, and of the m-th press (R476). -/
def saveLocal (r : WorkRec) (p : Nat) : Nat := r.save + 0x19400 * p
def saveSlot (r : WorkRec) (p i : Nat) : Nat := saveLocal r p + 0x10000 + 0x940 * i
def savePress (r : WorkRec) (m : Nat) : Nat := r.save + 0x19400 * r.parts.length + 0x88000 * m

/-- A write to the save area (log entry 38 on pages that are gone). -/
def State.saveBytes (s : State) (va : Nat) (bs : List Byte) : State := (s.virtWrite va bs).getD s

/-- Steps 4 to 6 of R476: local memories, contexts and presses of a victim saved, the errors met reported (R498); its cores and
presses are free, and it awaits restore. -/
def State.saveTask (s : State) (b : Task) : State :=
  let r := b.rec_
  let live := b.parts.zipIdx.flatMap (fun e => (s.liveSlots e.1).map (fun i => (e.1, e.2, i)))
  let s1 := b.parts.foldl State.drainCore s
  let s2 := b.parts.zipIdx.foldl (fun (x : State) e =>
    (x.readReport (localBase e.1) 0x10000).saveBytes (saveLocal r e.2) (x.bytesAt (localBase e.1) 0x10000)) s1
  let s3 := live.foldl (fun (x : State) e => x.saveBytes (saveSlot r e.2.1 e.2.2) (slotImage (s.slotOf e.1 e.2.2))) s2
  let s4 := b.parts.foldl State.clearCore s3
  let s5 := b.presses.zipIdx.foldl (fun (x : State) e =>
    match x.rangePages (savePress r e.2) imageBytes (fun p => p.w) with
    | some ps => match x.saveContext e.1 ps (savePress r e.2) with
      | .ok y => (y.report (x.planeBad e.1).toList).updPress e.1 (fun z => { z with st := .stopped })
      | .error _ => x
    | none => x) s4
  (s5.freeTask b).updDist (fun d => { d with
    preempted := d.preempted ++ [{ b with since := s.ns, saved := live.map (fun e => (e.1, e.2.2)) }] })

/-- A part of the task has ended, and its report is still to come (R291). -/
def State.reportsDue (s : State) (t : Task) : Bool := t.parts.any (fun u => (s.core u).ended)

/-- A sealed tile still waits for a queue of a press that the task holds (R324; log entry 99). -/
def State.postsDue (s : State) (t : Task) : Bool :=
  t.presses.any (fun p => (s.cluster (pressCluster p)).bufs.any (fun e => decide (e.2.state = .sealed) && decide (e.2.mu.toNat = p % 2)))

/-- The pre-emption of one victim goes as far as it can (R324, R476): its slots stop, its operations complete and its tiles are
posted, its presses stop and drain, and then it is saved. -/
def State.preempt (s : State) (b : Task) : State :=
  let s1 := s.haltTask b
  if !(b.parts.all (fun u => s1.atRest u && s1.opsDone u)) || s1.reportsDue b || s1.postsDue b then s1
  else if !s1.pressesIdle b then s1.stopPresses b
  else s1.saveTask b

/-- Tasks whose pre-emption is under way; one that has ended or has a slot in HALT ends as R474 gives (R475, R177). -/
def State.victims (s : State) : List Task :=
  s.dist.bound.filter (fun b => s.dist.stopping.contains b.key && !b.over && !(s.dist.halted.any (fun e => e.1 == b.key)))

/-- The tasks that stand in the way of the selected task are chosen for pre-emption if every one of them may be (R475). -/
def State.choosing (s : State) : State :=
  match s.dist.selected with
  | none => s
  | some t =>
    let bs := s.blockers t
    if bs.all (s.mayPreempt t.level) then s.updDist (fun d => { d with
      stopping := d.stopping ++ (bs.map (fun b => b.key)).filter (fun k => !d.stopping.contains k) })
    else s

/-- PREEMPTION: victims are chosen, and every pre-emption under way goes on. -/
def execPreemption (s : State) : Out := .next (s.choosing.victims.foldl State.preempt s.choosing)

/-- A part restored: local memory, identity registers, acquire, slots (R179, R477). Where a page of the save area cannot be read,
the local memory stays as it is, and the slot of the page FREE (log entry 83). -/
def State.restorePart (s : State) (t : Task) (u p : Nat) : State :=
  let r := t.rec_
  let s0 := s.virtReport (saveLocal r p) 0x10000
  let s1 := match s.virtRead (saveLocal r p) 0x10000 (fun _ => true) with
    | some bs => (s0.zero (localBase u) 0x10000).put (localBase u) bs
    | none => s0
  let s2 := (s1.updCore u (fun c => { c with ident := s.identOf r u p, task := some t.key, ended := false })).acquire u 0 .device
  (t.saved.filter (fun e => e.1 == u)).foldl (fun (x : State) e =>
    match x.virtRead (saveSlot r p e.2) 0x940 (fun _ => true) with
    | some bs => (x.virtReport (saveSlot r p e.2) 0x940).setSlot u e.2 (slotFrom bs s.cycle)
    | none => x) s2

/-- A press loaded and resumed (R326, R477; log entry 81). -/
def State.restorePress (s : State) (t : Task) (p m : Nat) : State :=
  let va := savePress t.rec_ m
  match s.rangePages va imageBytes (fun _ => true) with
  | none => s
  | some ps => match s.loadContext p ps va with
    | .error _ => s
    | .ok (x, _) => x.updPress p (fun z => z.enterRun s.cycle)

/-- TASK_RESTORE: the selected task, pre-empted before, goes on with the cores and presses that it held. -/
def execTaskRestore (s : State) : Out :=
  match s.dist.selected with
  | none => .next s
  | some t =>
    if !s.dist.restoring || !(t.parts.all s.coreIdle && t.presses.all s.pressIdle) then .next s
    else
      let s1 := t.parts.zipIdx.foldl (fun (x : State) e => x.restorePart t e.1 e.2) s
      let s2 := t.presses.zipIdx.foldl (fun (x : State) e => x.restorePress t e.1 e.2) s1
      .next (s2.updDist (fun d => { d with
        selected := none, restoring := false, bound := d.bound ++ [{ t with saved := [] }] }))

end Sys2Proof.Machine
end

