-- ==== Sys2Proof/Machine/Lookup.lean ====
section
/-! DEFINITION. Lookup cores: the commands of strands (13_lookup_engine.md R381 to R385), table descriptors (R387 to R389), bags,
fetches and pooling (R390 to R395), sparse accumulators and the fibre cache (R396 to R399). -/
namespace Sys2Proof.Machine

/-! ### Commands from strand cores (R382 to R385) -/

def State.look (s : State) (u : Nat) : Lookup := (s.core u).look
def State.updLook (s : State) (u : Nat) (f : Lookup → Lookup) : State := s.updCore u (fun c => { c with look := f c.look })

/-- The unit of lookup core L that the low bits of an operand name; none when other bits are set. -/
def lookTarget (v : W64) : Option Nat := if v.toNat < 128 then some (1536 + v.toNat) else none

/-- LK.POST (R385): ga holds L in [6:0] and the queue in [9:8]. -/
def execLkPost (d a b : GReg) (s : State) : Out :=
  let v := (s.readG a).toNat
  let u := 1536 + nf v 0 7
  let n := nf v 8 2
  onStrand s (if nb v 7 ∨ nf v 10 54 ≠ 0 then .trap s.command
    else s.releasing .device (fun t => match t.postEq u n (t.readG b) .device with
      | some t' => (t'.exchange t.cur u).gives d 1 16
      | none => (t.exchange t.cur u).gives d 0 16))

/-- LK.IMLD (R382, R384). -/
def execLkImld (a b : GReg) (s : State) : Out :=
  let v := (s.readG a).toNat
  let n := (s.readG b).toNat
  let src := nf v 0 16
  let dst := nf v 16 15
  let u := 1536 + nf v 32 7
  onStrand s (s.needSuper (
    if nb v 31 ∨ nf v 39 25 ≠ 0 ∨ (s.look u).run ∨ src % 4 ≠ 0 ∨ dst % 4 ≠ 0 ∨ n % 4 ≠ 0 ∨ n = 0 ∨ 0x10000 < src + n
        ∨ 0x8000 < dst + n then .trap s.command
    else
      let t := s.landFor s.cur (.localMem s.cur)
      if t.bad (localBase s.cur + src) n then t.errorTrap (localBase s.cur + src) { code := 0x14, eval := w64 src }
      else .ok ((t.put (ownBase u + dst) (t.bytesAt (localBase s.cur + src) n)).exchange s.cur u) (24 + (n + 15) / 16)))

/-- LK.RUN: counters and window cleared, slot 0 started at SUPER, its acquire mark kept (R384, R398; log entry 96). -/
def State.lookRun (s : State) (u : Nat) (pc : BitVec 16) : State :=
  (s.updLook u (fun l => { l with run := true, skipc := 0, whit := 0, fhit := 0, fmiss := 0, window := [] })).setSlot u 0
    (freshSlot s.cycle (s.slotOf u 0).acqMark pc true {})

/-- LK.RUN (R382, R384). -/
def execLkRun (a b : GReg) (s : State) : Out :=
  let pc := s.readG b
  onStrand s (s.needSuper (match lookTarget (s.readG a) with
    | none => .trap s.command
    | some u =>
      if nf pc.toNat 15 49 ≠ 0 ∨ pc.toNat % 4 ≠ 0 ∨ (s.look u).run then .trap s.command
      else .ok ((s.lookRun u (pc.truncate 16)).exchange s.cur u) 16))

/-- The number of slots that are not FREE. -/
def Core.busySlots (c : Core) : Nat := (c.slots.filter (fun e => decide (e.2.st ≠ .free))).length

/-- LK.HALT when every slot has stopped: slots FREE, descriptors and window gone, RUN 0 (R384). -/
def State.lookHalt (s : State) (u : Nat) : State :=
  s.updCore u (fun c => { c with
    slots := c.slots.map (fun e => (e.1, e.2.freed)), fifo := [], stopping := false
    look := { c.look with run := false, desc := [], window := [] } })

/-- The slots that were not FREE when the LK.HALT was issued (R382). -/
def State.haltCount (s : State) (u : Nat) : Nat :=
  match s.me.latched with
  | some (.count n) => n
  | _ => (s.core u).busySlots

/-- LK.HALT (R382, R384): it lasts until every slot stands at its boundary (log entry 30). -/
def execLkHalt (d a : GReg) (s : State) : Out :=
  onStrand s (s.needSuper (match lookTarget (s.readG a) with
    | none => .trap s.command
    | some u =>
      let n := s.haltCount u
      let t := s.haltCore u
      if t.atRest u then ((t.lookHalt u).exchange s.cur u).gives d (w64 n) 1
      else (Done.stay (t.updMe (fun x => { x with readyAt := s.cycle + 1 }))).holding (.count n)))

/-- Slots 0 to 7 as a mask. -/
def Core.slotMask (c : Core) (f : Slot → Bool) : Nat := bitsOf 8 (fun i => f (mget {} c.slots i))

/-- LKSTAT (R383). -/
def Core.lkstat (c : Core) : Nat :=
  b2n c.look.run + c.slotMask (fun x => decide (x.st ≠ .free)) * 2 ^ 8 + c.slotMask (fun x => decide (x.st = .halt)) * 2 ^ 16
    + ((List.range 4).map (fun q => (c.eqOf q).length * 2 ^ (24 + 5 * q))).sum
    + (c.look.desc.map (fun e => if e.2.valid then 2 ^ (44 + e.1 % 8) else 0)).sum

/-- Registers 0 to 4 of R382. -/
def Core.lookReg (c : Core) (n : Nat) : Nat :=
  match n with
  | 0 => c.lkstat
  | 1 => c.look.skipc.toNat
  | 2 => c.look.whit.toNat
  | 3 => c.look.fhit.toNat
  | _ => c.look.fmiss.toNat

/-- LK.STAT (R382). -/
def execLkStat (d a : GReg) (n : BitVec 3) (s : State) : Out :=
  onStrand s (match lookTarget (s.readG a) with
    | none => .trap s.command
    | some u => if 4 < n.toNat then .trap s.command
      else ((s.exchange s.cur u).acquire s.cur s.slot .device).gives d (w64 ((s.core u).lookReg n.toNat))
        (16 + acqCost s.cur .device))

/-! ### Table descriptors (R387 to R389) -/

/-- The fields of a record, its translations still to come. -/
def tableOf (v : Nat) : TableDesc :=
  { valid := true, csr := decide (nf v 96 4 = 1), bf16 := decide (nf v 100 4 = 1), nrows := nf v 64 32, el := nf v 104 10 + 1,
    vbase := nf v 0 64, rstr := nf v 128 64, vval := nf v 192 64, nnz := nf v 256 32, pages := [] }

/-- E of R387. -/
def TableDesc.esz (d : TableDesc) : Nat := if d.bf16 then 2 else 4

/-- The FORMAT checks (R387, R388). -/
def tableFormat (v : Nat) : Bool :=
  let d := tableOf v
  decide (1 < nf v 96 4) || decide (nf v 114 14 ≠ 0) || decide (nf v 288 224 ≠ 0) || decide (d.nrows = 0) || decide (2 ^ 31 < d.nrows)
    || decide (d.vbase % 8 ≠ 0) || !canonical (w64 d.vbase)
    || (if d.csr then decide (nf v 100 4 ≠ 0) || decide (d.el ≠ 1) || decide (d.rstr % 4 ≠ 0) || decide (d.vval % 4 ≠ 0)
          || !canonical (w64 d.rstr) || !canonical (w64 d.vval)
        else decide (1 < nf v 100 4) || decide (1024 < d.el * d.esz) || decide (d.rstr % 8 ≠ 0) || decide (d.rstr < d.el * d.esz)
          || decide (d.vval ≠ 0) || decide (d.nnz ≠ 0))

/-- The ranges that a descriptor translates: start and length (R388). -/
def TableDesc.ranges (d : TableDesc) : List (Nat × Nat) :=
  if d.csr then [(nf d.vbase 0 57, 8 * (d.nrows + 1)), (nf d.rstr 0 57, 4 * d.nnz), (nf d.vval 0 57, 4 * d.nnz)]
  else [(nf d.vbase 0 57, (d.nrows - 1) * d.rstr + d.el * d.esz)]

/-- The translations of several ranges: not present counts before protection (R275). -/
def State.translateAll (s : State) (sup : Bool) : List (Nat × Nat) → Except Nat (List PageTr)
  | [] => .ok []
  | e :: es => match s.translateRange e.1 e.2 false sup, s.translateAll sup es with
    | .ok x, .ok y => .ok (x ++ y)
    | .ok _, .error k => .error k
    | .error k, .ok _ => .error k
    | .error k, .error k' => .error (min k k')

/-- Page entries in use. -/
def Lookup.entriesUsed (l : Lookup) : Nat := (l.desc.map (fun e => e.2.pages.length)).sum

/-- A descriptor that exists, valid or not. -/
def Lookup.descAt (l : Lookup) (n : Nat) : Option TableDesc := (l.desc.find? (fun e => e.1 == n)).map (·.2)

/-- A valid descriptor. -/
def Lookup.validDesc (l : Lookup) (n : Nat) : Option TableDesc :=
  match l.descAt n with
  | some d => if d.valid then some d else none
  | none => none

/-- LK.TDESC: status, or the descriptor (R388); a descriptor that is not valid any more is no BUSY (R389; log entry 105). -/
def State.makeTable (s : State) (v n : Nat) : Except Nat TableDesc :=
  let l := s.look s.cur
  let d := tableOf v
  if (l.validDesc n).isSome then .error 5
  else if tableFormat v then .error 6
  else if d.ranges.any (fun r => decide (2 ^ 57 < r.1 + r.2)) then .error 3
  else match s.translateAll s.super d.ranges with
    | .error e => .error e
    | .ok ps =>
      let pages := ps.eraseDups
      if 4096 < l.entriesUsed + pages.length then .error 4 else .ok { d with pages := pages }

/-- LK.TDESC (R388). -/
def execLkTdesc (d a b : GReg) (s : State) : Out :=
  let o := (s.readG a).toNat
  let n := (s.readG b).toNat
  onLookup s (if o % 64 ≠ 0 ∨ 0x8000 ≤ o ∨ 7 < n then .trap s.command
    else
      let t0 := s.landFor s.cur (.localMem s.cur)
      let v := t0.numAt (ownBase s.cur + o) 64
      let r := t0.makeTable v n
      let t := t0.afterWalks r (tableOf v).ranges
      if t0.bad (ownBase s.cur + o) 64 then t0.errorTrap (ownBase s.cur + o) (meshError (w64 o))
      else match r with
      | .error e => .okWait (t.writeG d (w64 e)) 16
      | .ok x => .okWait ((t.updLook t.cur (fun l => { l with desc := mins (merase l.desc n) n x })).writeG d 0) (16 + 48 * x.pages.length))

/-- An open bag of some slot of the core names descriptor `n`. -/
def Core.bagNames (c : Core) (n : Nat) : Bool :=
  c.slots.any (fun e => match e.2.bag with | some b => b.desc == n | none => false)

/-- LK.TFREE (R388), of a descriptor that is not valid any more too (R389; log entry 105). -/
def execLkTfree (d a : GReg) (s : State) : Out :=
  let n := (s.readG a).toNat
  onLookup s (if 7 < n then .trap s.command
    else if (s.core s.cur).bagNames n then s.gives d 5 4
    else (s.updLook s.cur (fun l => { l with desc := merase l.desc n })).gives d 0 4)

/-- The translations of a virtual page change: descriptors of lookup cores that hold it lose their valid bit, and no window entry
of theirs is used from then on (R389). -/
def Lookup.invalidate (l : Lookup) (hit : PageTr → Bool) : Lookup :=
  let gone := fun (e : Nat × TableDesc) => e.2.pages.any hit
  { l with
    desc := l.desc.map (fun e => if gone e then (e.1, { e.2 with valid := false }) else e)
    window := l.window.filter (fun w => !(l.desc.any (fun e => e.1 == w.desc && gone e))) }

/-! ### Bags (R390, R391, R394) -/

/-- LK.BOPEN (R390, R391). -/
def execLkBopen (a : GReg) (s : State) : Out :=
  let v := (s.readG a).toNat
  let desc := (s.look s.cur).validDesc (nf v 0 3)
  onLookup s (match desc with
    | none => .trap s.command
    | some x =>
      if x.csr ∨ nf v 3 5 ≠ 0 ∨ nf v 8 2 = 3 ∨ nf v 10 2 ≠ 0 ∨ nf v 13 51 ≠ 0 then .trap s.command
      else
        let bag : Bag :=
          { desc := nf v 0 3, pool := if nf v 8 2 = 0 then .sum else if nf v 8 2 = 1 then .mean else .max, im := nb v 12, n := 0,
            acc := List.replicate x.el 0 }
        .ok (s.updMe (fun y => { y with bag := some bag })) 4)

/-- LK.BDROP; with no open bag it traps as LK.BCLOSE does (log entry 31). -/
def execLkBdrop (d : GReg) (s : State) : Out :=
  onLookup s (match s.me.bag with
    | none => .trap s.command
    | some b => (s.updMe (fun y => { y with bag := none })).gives d (w64 b.n) 4)

/-! ### Reads at the home (R380, R396) -/

/-- A read by a lookup slot of bytes within one line, at the home of the line: the state, and what it finds. -/
def State.lookPiece (s : State) (pages : List PageTr) (e : Nat × Nat) : MemRes × State :=
  match transIn pages e.1 with
  | none => (.unmapped e.1, s)
  | some pa =>
    if !s.mapped pa then (.unmapped pa, s)
    else
      let t := s.readAtHome pa e.2 (pages.any (fun p => p.rd && decide (p.va ≤ e.1) && decide (e.1 < p.va + p.size)))
      (if t.bad pa e.2 then .error pa else .ok (t.bytesAt pa e.2), t)

/-- A read of several pieces. -/
def State.lookPieces (s : State) (pages : List PageTr) : List (Nat × Nat) → MemRes × State
  | [] => (.ok [], s)
  | e :: es => match s.lookPiece pages e with
    | (.ok bs, t) => match t.lookPieces pages es with
      | (r, t') => ((MemRes.ok bs).append r, t')
    | r => r

/-- A read of a virtual range by plain loads. -/
def State.lookRead (s : State) (pages : List PageTr) (va n : Nat) : MemRes × State :=
  s.lookPieces pages (linePieces (n / 64 + 2) va n)

/-! ### LK.FETCH (R392, R393) -/

/-- Elements of a row in FP32 (R88). -/
def rowOf32 (bf16 : Bool) (bs : List Byte) (el : Nat) : List W32 :=
  (chunksN (if bf16 then 2 else 4) el bs).map (fun c => w32 (if bf16 then leNat c * 2 ^ 16 else leNat c))

/-- One element pooled. -/
def poolOne (p : Pool) (first : Bool) (a r : W32) : FRes :=
  match p with
  | .max => if first then (r.toNat, 0) else fpMin a.toNat r.toNat true
  | _ => fpAdd 23 0 (fpOf a.toNat) (fpOf r.toNat)

/-- A row pooled into an accumulator, with the flags; the accumulator keeps its number of elements (log entry 106). -/
def poolRow (p : Pool) (first : Bool) : List W32 → List W32 → List W32 × W32
  | [], _ => ([], 0)
  | a :: as, rs =>
    let x := poolOne p first a (rs.headD 0)
    let y := poolRow p first as rs.tail
    (w32 x.1 :: y.1, x.2 ||| y.2)

/-- The bag after one more row; gd takes the source (R392). -/
def State.pooled (s : State) (d : GReg) (b : Bag) (row : List W32) (src : W64) (lat : Nat) : Done :=
  let r := poolRow b.pool (decide (b.n = 0)) b.acc row
  ((s.updMe (fun y => { y with bag := some { b with acc := r.1, n := b.n + 1 } })).orFlags r.2).gives d src lat

/-- A row enters the window (R393). -/
def Lookup.enter (l : Lookup) (w : WindowEntry) : Lookup :=
  let rest := l.window.filter (fun e => !(e.desc == w.desc && e.index == w.index))
  { l with window := (if 256 ≤ rest.length then rest.tail else rest) ++ [w] }

/-- The window entry that a slot may use (R393); one whose row was read under a descriptor of another width is not used (log
entry 32). -/
def Lookup.hit (l : Lookup) (desc index mark el : Nat) : Option WindowEntry :=
  l.window.find? (fun e => e.desc == desc && e.index == index && decide (mark < e.mark) && e.row.length == el)

/-- A read of a line by unit `u` is served in its own stack: the home of the line is there, or a replica of it is (R78). -/
def State.nearLine (s : State) (u pa : Nat) (rd : Bool) : Bool :=
  decide (sliceKey pa = 2000 + stackOf u) || (rd && (mget 0 s.replicas (pa / 64)).getLsbD (stackOf u))

/-- Cycles until the bytes of a range arrive: 24 where every line of it is served in the own stack, 60 otherwise (R386; log entry 4). -/
def State.rowTrip (s : State) (pages : List PageTr) (va n : Nat) : Nat :=
  if (linePieces (n / 64 + 2) va n).all (fun e =>
      match transIn pages e.1 with
      | some pa => s.nearLine s.cur pa (pages.any (fun p => p.rd && decide (p.va ≤ e.1) && decide (e.1 < p.va + p.size)))
      | none => true)
  then 24 else 60

/-- LK.FETCH of an index within the table. -/
def State.fetchRow (s : State) (d : GReg) (b : Bag) (x : TableDesc) (i : Nat) : Done :=
  match (s.look s.cur).hit b.desc i s.me.acqMark x.el with
  | some w => (s.updLook s.cur (fun l => { l with whit := satInc l.whit })).pooled d b w.row 1 8
  | none =>
    let va := x.vbase + i * x.rstr
    match s.lookRead x.pages (nf va 0 57) (x.el * x.esz) with
    | (.unmapped pa, _) => .fault (.unmappedPhysical pa)
    | (.error key, t) => t.errorTrap key { code := 0x14, eval := w64 va }
    | (.ok bs, t) =>
      let row := rowOf32 x.bf16 bs x.el
      let t1 := t.bump
      (t1.updLook t.cur (fun l => l.enter ⟨b.desc, i, row, t1.ticket⟩)).pooled d b row 0
        (s.rowTrip x.pages (nf va 0 57) (x.el * x.esz))

/-- LK.FETCH (R392), with the descriptor as it now stands (log entry 106). -/
def execLkFetch (d a : GReg) (s : State) : Out :=
  let i := sfield 32 (s.readG a).toNat
  onLookup s (match s.me.bag with
    | none => .trap s.command
    | some b => match (s.look s.cur).validDesc b.desc with
      | none => .trap s.command
      | some x =>
        if i < 0 ∨ (x.nrows : Int) ≤ i then
          if b.im then .trap { code := 0x08, eval := intW i }
          else (s.updLook s.cur (fun l => { l with skipc := satInc l.skipc })).pooled d b (List.replicate x.el 0) 2 8
        else s.fetchRow d b x i.toNat)

/-! ### LK.BCLOSE, LK.SEAL (R394, R395) -/

/-- What one accumulator element becomes: for MEAN times r, then in the format of the tile (log entry 33). -/
def closeOne (b : Bag) (r : FRes) (bf16 : Bool) (a : W32) : FRes :=
  let x : FRes := if b.pool = .mean then fpMul 23 0 (fpOf a.toNat) (fpOf r.1) else (a.toNat, 0)
  let y := fpNarrow (if bf16 then 7 else 23) 0 (fpOf x.1)
  (y.1, x.2 ||| y.2)

/-- The row that a bag writes, with its flags (R394). -/
def Bag.result (b : Bag) (bf16 : Bool) : List Byte × W32 :=
  let n := roundF 23 0 false b.n 0
  let r := fpRcp 23 (fpOf n.1)
  let out := if b.n = 0 then b.acc.map (fun _ => ((0, 0) : FRes)) else b.acc.map (closeOne b r bf16)
  (out.flatMap (fun e => if bf16 then leBytes 2 (e.1 / 2 ^ 16) else leBytes 4 e.1),
   out.foldl (fun f e => f ||| e.2) (if b.n ≠ 0 ∧ b.pool = .mean then n.2 ||| r.2 else 0))

/-- The checks at the control word, and the write (R394). -/
def State.bclose (s : State) (d : GReg) (b : Bag) (r : TileRef) (t : TileAddr) : Done :=
  let x := s.buf r.cl r.b
  let fmt := x.fmt.toNat
  let e := if fmt = 1 then 2 else 4
  if x.state ≠ .open_ then .trap (closed t.handle d true)
  else if x.haar then .trap (domainTrap t.handle d true)
  else if 1 < fmt then .trap { code := 0x10, eval := w64 fmt, wr := true }
  else if x.rows ≤ t.row ∨ t.off % e ≠ 0 ∨ 64 * x.pitch < t.off + b.acc.length * e then .trap (tileBounds t.row t.off d)
  else
    let out := b.result (decide (fmt = 1))
    (((s.tileWrite r.cl r.b t.row t.off out.1).orFlags out.2).updMe (fun y => { y with bag := none })).gives d (w64 b.n) 24

/-- LK.BCLOSE (R394). -/
def execLkBclose (d a : GReg) (s : State) : Out :=
  onLookup s (match s.me.bag with
    | none => .trap s.command
    | some b => match tileAddr (s.readG a) false with
      | none => .trap s.command
      | some t => match s.tileCheck t.handle d true true with
        | .error e => .trap e
        | .ok r => s.bclose d b r t)

/-- LK.SEAL (R395). -/
def execLkSeal (d a : GReg) (s : State) : Out :=
  onLookup s (match tileHandle (s.readG a) with
    | none => .trap s.command
    | some h => match s.tileCheck h d false true with
      | .error e => .trap e
      | .ok r => s.releasing .device (fun t => match t.sealTile r.cl r.b with
        | .stale => .trap { code := 0x0B, eval := zx h, reg := d.toNat }
        | .already => t.gives d 1 24
        | .domain => .trap (domainTrap h d false)
        | .empty u => u.gives d 2 24
        | .sealed u true => u.gives d 0 24
        | .sealed u false => .stay (u.parkFor (.posting d r.cl r.b) .wait)))

/-- LK.WCLR (R393). -/
def execLkWclr (s : State) : Out := onLookup s (.ok (s.updLook s.cur (fun l => { l with window := [] })) 4)

/-! ### The fibre cache and LK.FIB (R396, R398) -/

/-- Lines of a fibre cache: 2 MiB of 64 bytes. -/
def fibreLines : Nat := 32768

/-- The least recently used line. -/
def fibreVictim (m : Map FibreLine) : Option Nat :=
  (m.foldl (fun (acc : Option (Nat × Nat)) e =>
    match acc with
    | some b => if e.2.used < b.2 then some (e.1, e.2.used) else acc
    | none => some (e.1, e.2.used)) none).map (·.1)

/-- What a read of one array entry finds, with the state of cache and counters after it. -/
inductive FibreRes where
  | ok (v : Nat) (s : State)
  | error (key : Nat) (va : Nat) (s : State)
  | unmapped (pa : Nat)

/-- One entry of `n` bytes through the fibre cache of the slot's stack (R398). A line with a granule in error is not kept. -/
def State.fibRead (s : State) (pages : List PageTr) (va n : Nat) : FibreRes :=
  let st := stackOf s.cur
  let m := mget [] s.fibre st
  match transIn pages (nf va 0 57) with
  | none => .unmapped va
  | some pa =>
    let ln := pa / 64
    if !s.mapped pa then .unmapped pa
    else match m.find? (fun e => e.1 == ln && decide (s.me.acqMark < e.2.fill)) with
    | some e =>
      let s1 := (s.bump.updLook s.cur (fun l => { l with fhit := satInc l.fhit }))
      .ok (e.2.data.toNat / 2 ^ (8 * (pa % 64)) % 2 ^ (8 * n))
        { s1 with fibre := mins (merase s.fibre st) st (mins (merase m ln) ln { e.2 with used := s1.ticket }) }
    | none =>
      match s.lookPiece pages (nf va 0 57, n) with
      | (.unmapped x, _) => .unmapped x
      | (.error key, t) => .error key va t
      | (.ok bs, t) =>
        let t1 := t.bump.updLook t.cur (fun l => { l with fmiss := satInc l.fmiss })
        if t1.bad (64 * ln) 64 then .ok (leNat bs) t1
        else
          let m1 := merase m ln
          let m2 := if fibreLines ≤ m1.length then (match fibreVictim m1 with | some v => merase m1 v | none => m1) else m1
          let line : FibreLine := { data := BitVec.ofNat 512 (t1.numAt (64 * ln) 64), fill := t1.ticket, used := t1.ticket }
          .ok (leNat bs) { t1 with fibre := mins (merase t1.fibre st) st (mins m2 ln line) }

/-- What a read of several values finds. -/
inductive FibreSeq where
  | ok (vs : List Nat) (s : State)
  | error (key : Nat) (va : Nat) (s : State)
  | unmapped (pa : Nat)

/-- `n` entries of `w` bytes from `va` upward. -/
def State.fibSeq (s : State) (pages : List PageTr) (w : Nat) : Nat → Nat → FibreSeq
  | _, 0 => .ok [] s
  | va, n + 1 => match s.fibRead pages va w with
    | .unmapped pa => .unmapped pa
    | .error key a t => .error key a t
    | .ok v t => match t.fibSeq pages w (va + w) n with
      | .ok vs t' => .ok (v :: vs) t'
      | r => r

/-- One product added to the accumulator (R396). -/
def fibAdd (a : Fp) (acc : Map W32 × W32) (e : Nat × Nat) : Map W32 × W32 :=
  let r := match acc.1.find? (fun x => x.1 == e.1) with
    | some x => fpFma 23 0 a (fpOf e.2) (fpOf x.2.toNat)
    | none => fpMul 23 0 a (fpOf e.2)
  (mins (merase acc.1 e.1) e.1 (w32 r.1), acc.2 ||| r.2)

/-- New columns that a fibre would add. -/
def newColumns (acc : Map W32) (cols : List Nat) : Nat := (cols.eraseDups.filter (fun j => !acc.any (fun x => x.1 == j))).length

/-- A memory error of LK.FIB. -/
def State.fibError (s : State) (key va : Nat) (t : State) : Done :=
  let back := t.updLook s.cur (fun _ => s.look s.cur)
  back.errorTrap key { code := 0x14, eval := w64 va }

/-- LK.FIB of a row within its table. -/
def State.fibre_ (s : State) (d : GReg) (x : TableDesc) (k : Nat) (a : Fp) : Done :=
  match s.fibSeq x.pages 8 (x.vbase + 8 * k) 2 with
  | .unmapped pa => .fault (.unmappedPhysical pa)
  | .error key va t => s.fibError key va t
  | .ok rp t =>
    let p0 := nth 0 rp 0
    let p1 := nth 0 rp 1
    if p1 < p0 ∨ x.nnz < p1 then .trap { code := 0x08, eval := w64 k }
    else match t.fibSeq x.pages 4 (x.rstr + 4 * p0) (p1 - p0) with
    | .unmapped pa => .fault (.unmappedPhysical pa)
    | .error key va t1 => s.fibError key va t1
    | .ok cols t1 =>
      if 1024 - s.me.sparse.length < newColumns s.me.sparse cols then s.gives d (BitVec.allOnes 64) 8
      else match t1.fibSeq x.pages 4 (x.vval + 4 * p0) (p1 - p0) with
      | .unmapped pa => .fault (.unmappedPhysical pa)
      | .error key va t2 => s.fibError key va t2
      | .ok vals t2 =>
        let r := (cols.zip vals).foldl (fibAdd a) (s.me.sparse, 0)
        ((t2.updMe (fun y => { y with sparse := r.1 })).orFlags r.2).gives d (w64 (p1 - p0)) (8 + (p1 - p0))

/-- LK.FIB (R396). -/
def execLkFib (d a b : GReg) (n : BitVec 3) (s : State) : Out :=
  let k := sfield 32 (s.readG a).toNat
  let v := (s.readG b).toNat
  onLookup s (match (s.look s.cur).validDesc n.toNat with
    | none => .trap s.command
    | some x =>
      if !x.csr ∨ nf v 32 32 ≠ 0 then .trap s.command
      else if k < 0 ∨ (x.nrows : Int) ≤ k then .trap { code := 0x08, eval := intW k }
      else s.fibre_ d x k.toNat (fpOf v))

/-! ### LK.SPOUT, LK.GETC (R397, R399) -/

/-- One doubleword of an accumulator written at a physical address, as a posted store; a line of a read-duplicated page is
written at its home once its replicas are gone (R77, R380). -/
def State.spoutOne (s : State) (hd : Handle) (pa v : Nat) : State :=
  if hd.rd then
    ((s.atHome pa 8).perLine pa 8 (fun t a => t.withdraw (a / 64))).linesPut pa (leBytes 8 v)
  else s.postLines pa (leBytes 8 v)

/-- LK.SPOUT (R397). -/
def execLkSpout (d a : GReg) (h : HReg) (s : State) : Out :=
  let hd := s.readH h
  let o := (s.readG a).toInt
  let acc := s.me.sparse
  let c := acc.length
  let t (code : Nat) (e : W64) : Trap := { code := code, eval := e, reg := h.toNat, wr := true }
  let addr (i : Nat) := hd.pbase.toNat + o.toNat + 8 * i
  onLookup s (if o % 8 ≠ 0 then .trap (t 0x06 (hd.vbase + intW o))
    else if !hd.v then .trap (t 0x07 hd.vbase)
    else if o < 0 ∨ (hd.span.toNat : Int) < o + 8 * c then .trap (t 0x08 (intW o))
    else if !hd.w then .trap (t 0x09 (intW o))
    else match (List.range c).find? (fun i => !s.mapped (addr i)) with
    | some i => .fault (.unmappedPhysical (addr i))
    | none =>
      let s1 := acc.zipIdx.foldl (fun (x : State) e => x.spoutOne hd (addr e.2) (e.1.1 + e.1.2.toNat * 2 ^ 32)) s
      (s1.updMe (fun y => { y with sparse := [] })).gives d (w64 c) (8 + c))

/-- LK.GETC (R399). -/
def execLkGetc (d : GReg) (n : BitVec 3) (s : State) : Out :=
  onLookup s (s.gives d (w64 ((s.core s.cur).lookReg n.toNat)) 4)

end Sys2Proof.Machine
end

