-- ==== Sys2Proof/Machine/Device.lean ====
section
/-! DEFINITION. The device as its masters see it (17_device.md R484 to R502): ownership, boot, registers, page-table invalidation
(R23), doorbells, BAR2, clock steps, soft errors, resets. -/
namespace Sys2Proof.Machine

def State.updMgmt (s : State) (f : Mgmt → Mgmt) : State := { s with mgmt := f s.mgmt }

/-! ### Ownership (R488, R489) -/

/-- OWN. -/
def Mgmt.own (m : Mgmt) : Nat := m.owner % 4 + b2n m.expert * 4 + m.epoch.toNat * 2 ^ 16

/-- A write that the owner may make: dropped and counted for any other master, and for a value that the register cannot take
(R489, R501). -/
def State.ownerWrite (s : State) (m : Master) (ok : Bool) (k : State → State) : Out :=
  .next (if s.mgmt.owner = m.code && ok then k s else s.deny m)

/-- OWNCAS. -/
def execOwncas (m : Master) (v : W64) (s : State) : Out :=
  let g := s.mgmt
  let new := nf v.toNat 32 2
  if g.own ≠ nf v.toNat 0 32 ∨ (g.owner ≠ m.code ∧ ¬(g.owner = 0 ∧ new = m.code)) then .next (s.deny m)
  else
    let level := decide (g.bootst = .ready) && g.policy && nb v.toNat 34 && decide (new ≠ 0)
    .next (s.updMgmt (fun x => { x with
      expert := level, epoch := if new = x.owner then x.epoch else x.epoch + 1, owner := new }))

/-- OWNER_PATH_FAILURE: the path of a master fails; if it is the owner, the device has none. -/
def execOwnerPathFailure (m : Master) (s : State) : Out :=
  .next (if s.mgmt.owner = m.code then s.updMgmt (fun x => { x with owner := 0, expert := false, epoch := x.epoch + 1 }) else s)

/-! ### Boot (R490, R491) -/

/-- POWER_UP: the cold reset of R496; the model's own counters and inputs go on. -/
def execPowerUp (s : State) : Out :=
  .next { State.reset with agenda := s.agenda, outbox := s.outbox, ticket := s.ticket, freeCtr := s.freeCtr }

/-- FWGO. -/
def execFwgo (m : Master) (v : W64) (s : State) : Out :=
  s.ownerWrite m (decide (0x1000 ≤ v.toNat) && decide (v.toNat ≤ 0x1000000) && decide (s.mgmt.bootst ≠ .check))
    (fun t => t.updMgmt (fun x => { x with bootst := .check, fwLen := v.toNat }))

/-- The failures of a firmware image: RSA, SLH-DSA, key digest, version, format (BOOTST[6:2]). -/
def bootFailures (bs : List Byte) : Nat :=
  let w (o : Nat) := leNat ((bs.drop o).take 4)
  let one (i : Nat) (b : Bool) : Nat := if b then 2 ^ i else 0
  one 0 (!Config.signatureRsa bs) + one 1 (!Config.signatureSlh bs) + one 2 (!Config.keyDigest bs)
    + one 3 (decide (w 4 < Config.fusedVersion))
    + one 4 (decide (w 0 ≠ 0x46574E96) || decide (1 < w 12) || decide (bs.length ≠ 0x2210 + w 8))

/-- FIRMWARE_VERIFY_DONE. -/
def execFirmwareVerifyDone (s : State) : Out :=
  if s.mgmt.bootst ≠ .check then .next s
  else
    let bs := s.bytesAt stagingBase s.mgmt.fwLen
    let fails := bootFailures bs
    .next (s.updMgmt (fun x => { x with
      bootFail := BitVec.ofNat 5 fails, bootst := if fails = 0 then .ready else .fail
      policy := decide (fails = 0) && nb (leNat ((bs.drop 12).take 4)) 0 }))

/-! ### Registers (R485, R492, R493, R501) -/

/-- DEVNUM. -/
def execDevnum (m : Master) (v : W64) (s : State) : Out :=
  s.ownerWrite m (decide (v.toNat < 2 ^ 9) && !s.mgmt.run) (fun t => t.updMgmt (fun x => { x with devnum := v.truncate 9 }))

/-- PTROOT. -/
def execPtroot (m : Master) (v : W64) (s : State) : Out :=
  s.ownerWrite m (decide (nf v.toNat 0 12 = 0) && decide (v.toNat < 2 ^ 52)) (fun t => t.updMgmt (fun x => { x with ptroot := v }))

/-- RUN; before READY the write is dropped (log entry 40). -/
def execRun (m : Master) (v : W64) (s : State) : Out :=
  s.ownerWrite m (decide (v = 1) && decide (s.mgmt.bootst = .ready)) (fun t => t.updMgmt (fun x => { x with run := true }))

/-- Keys that a warm reset preserves: HBM4, pool memory, scratchpads, and the staging area of the firmware (R496; log entry 41). -/
def keptByReset (k : Nat) : Bool := decide (k < 2 ^ 56) || (decide (2 ^ 58 ≤ k) && decide (k < 2 ^ 59)) || decide (2 ^ 60 ≤ k)

/-- The warm reset of R496. Plane contents in images that HBM4 preserves stay loadable (R325). -/
def State.warmReset (s : State) : State :=
  let g := s.mgmt
  { State.reset with
    cycle := s.cycle, time141 := s.time141, agenda := s.agenda, outbox := s.outbox, ticket := s.ticket, freeCtr := s.freeCtr
    mem := s.mem.filter (fun c => keptByReset c.1), poison := s.poison.filter (fun x => keptByReset (8 * x))
    mgmt := { g with inval := none, run := false, bar2base := 0, hdm := [] }, vault := s.vault }

/-- RST. -/
def execRst (m : Master) (v : W64) (s : State) : Out := s.ownerWrite m (decide (v = 1)) State.warmReset

/-- Doorbell q (R487, R502). -/
def execDoorbell (m : Master) (q : Nat) (v : W64) (s : State) : Out :=
  let n := v.toNat
  let pushed := if q < 64 ∧ 1 ≤ n ∧ n ≤ 65536 ∧ s.mgmt.run ∧ (s.queue q).conf then s.pushQueue q n else none
  s.ownerWrite m pushed.isSome (fun t => pushed.getD t)

/-! ### Invalidation (R23, R276, R389, R408, R485) -/

/-- Size of the page that INVVA names. -/
def invSize (n : Nat) : Nat := if n = 0 then 0x1000 else if n = 1 then 0x200000 else 0x40000000

/-- Two ranges meet. -/
def meets (a n b m : Nat) : Bool := decide (a < b + m) && decide (b < a + n)

/-- Virtual page of a handle: base and size. -/
def Handle.page (h : Handle) : Nat × Nat := (nf h.vbase.toNat 0 57 / h.psz.bytes * h.psz.bytes, h.psz.bytes)

def Handle.maps (h : Handle) (va n : Nat) : Bool := h.v && meets h.page.1 h.page.2 va n

def Bank.invalidate (b : Bank) (va n : Nat) : Bank :=
  { b with h := b.h.map (fun e => if e.2.maps va n then (e.1, { e.2 with v := false }) else e) }

/-- V clears in the handles of every slot that map the page; descriptors of lookup cores that hold it are no longer valid. -/
def Core.invalidate (c : Core) (va n : Nat) : Core :=
  { c with
    slots := c.slots.map (fun e => (e.1, { e.2 with b0 := e.2.b0.invalidate va n, b1 := e.2.b1.invalidate va n }))
    look := c.look.invalidate (fun p => meets p.va p.size va n) }

/-- Loads of a unit that wait for a line, and stores and atomics that wait with the handle of their issue. -/
def Core.waitingLoads (c : Core) (u : Nat) : List (Nat × Nat × Nat) :=
  c.slots.filterMap (fun e => match e.2.wait with | .load _ pa _ _ => some (u, e.1, pa) | _ => none)
def Core.waitingStores (c : Core) (u : Nat) : List (Nat × Nat × Handle) :=
  c.slots.filterMap (fun e => match e.2.latched with | some (.handle h) => some (u, e.1, h) | _ => none)

/-- What the acknowledgement of an INVVA waits for, as it stands when V clears: every access in flight, whichever handle it was
issued through (R23; log entry 80). -/
def State.inFlight (s : State) (va n : Nat) : Inval :=
  { va := va, size := n, cycle := s.cycle
    posted := s.posted.filter (fun p => match p.dest with | .line _ => true | _ => false)
    loads := s.cores.flatMap (fun e => e.2.waitingLoads e.1)
    prefs := s.cores.flatMap (fun e => e.2.pref.map (fun x => (e.1, x)))
    stores := s.cores.flatMap (fun e => e.2.waitingStores e.1) }

/-- Descriptors and windows that hold a translation of the page lose their valid bit (R276, R408). -/
def State.invalidate (s : State) (va n : Nat) : State :=
  let hit := fun (ps : List PageTr) => ps.any (fun p => meets p.va p.size va n)
  { s with
    cores := s.cores.map (fun e => (e.1, e.2.invalidate va n))
    clusters := s.clusters.map (fun e => (e.1, { e.2 with
      descs := e.2.descs.map (fun d => if hit d.2.pages then (d.1, { d.2 with valid := false }) else d) }))
    fabric := { s.fabric with
      windows := s.fabric.windows.map (fun w => if hit w.2.pages then (w.1, { w.2 with valid := false }) else w) } }

/-- INVVA. -/
def execInvva (m : Master) (v : W64) (s : State) : Out :=
  let k := nf v.toNat 0 2
  let n := invSize k
  let va := v.toNat / n * n
  s.ownerWrite m (decide (nf v.toNat 2 10 = 0) && decide (v.toNat < 2 ^ 57) && decide (k ≠ 3) && s.mgmt.inval.isNone)
    (fun t => if !t.mgmt.run then t else (t.invalidate va n).updMgmt (fun x => { x with inval := some (t.inFlight va n) }))

/-- A command still holds a translation of the page (R276, R408), or an image of a press does (R323). -/
def State.translationHeld (s : State) (va n : Nat) : Bool :=
  let hit := fun (ps : List PageTr) => ps.any (fun p => meets p.va p.size va n)
  let hitDesc := fun (d : Option TensorDesc) => match d with | some x => hit x.pages | none => false
  let hitWin := fun (w : Option LatchedWin) => match w with | some x => hit x.pages | none => false
  s.clusters.any (fun e => e.2.chans.any (fun c => c.2.queue.any (fun k => hitDesc k.src || hitDesc k.dst)))
    || s.cores.any (fun e => e.2.slots.any (fun x => match x.2.latched with
      | some (.command _ a b _) => hitDesc a || hitDesc b
      | _ => false))
    || s.cores.any (fun e => e.2.fab.any (fun c => c.2.queue.any (fun k => hitWin k.locWin || hitWin k.remWin)))
    || s.presses.any (fun e => match e.2.busy with
      | some (.save _ _ ps _ _) => hit ps
      | some (.load _ _ ps _ _) => hit ps
      | _ => false)

/-- An access that was in flight when V cleared has not been performed in full (R23). -/
def State.accessHeld (s : State) (i : Inval) : Bool :=
  s.cores.any (fun e => (e.2.waitingLoads e.1).any i.loads.contains || (e.2.waitingStores e.1).any i.stores.contains
      || e.2.pref.any (fun x => i.prefs.contains (e.1, x))
      || e.2.l1.any (fun l => decide (l.2.dirty ≠ 0) && decide (l.2.since ≤ i.cycle)))
    || s.posted.any i.posted.contains

/-- INVALIDATION_ACK: every acknowledgement has arrived. -/
def execInvalidationAck (s : State) : Out :=
  match s.mgmt.inval with
  | none => .next s
  | some i => .next (if s.translationHeld i.va i.size || s.accessHeld i then s else s.updMgmt (fun x => { x with inval := none }))

/-! ### BAR2 (R486, R489) -/

/-- Bytes of the BAR2 window. -/
def bar2Size : Nat := 2 ^ 36

/-- The key of a host offset: the staging area below 16 MiB before READY, else a physical address. -/
def State.bar2Key (s : State) (off : Nat) : Nat :=
  if decide (s.mgmt.bootst ≠ .ready) && decide (off < 0x1000000) then stagingBase + off else s.mgmt.bar2base.toNat + off

/-- The key can be reached. -/
def State.bar2Has (s : State) (key : Nat) : Bool := decide (stagingBase ≤ key) || s.mapped key

/-- BAR2_READ: an unmapped address reads as all ones; errors are reported (R486, R498). -/
def execBar2Read (off n : Nat) (s : State) : Out :=
  if bar2Size < off + n then .next s
  else
    let data := (List.range n).map (fun i =>
      let k := s.bar2Key (off + i)
      if s.bar2Has k then mget 0 s.mem k else 0xFF#8)
    let bad := (linePieces (n / 64 + 2) off n).flatMap (fun e => s.badKey (s.bar2Key e.1) e.2)
    .next (({ s with outbox := s.outbox ++ [OutMsg.hostRead data] } : State).report bad)

/-- Bytes written one by one through the window. -/
def State.bar2Put (s : State) (off : Nat) (bs : List Byte) : State :=
  let pieces := linePieces (bs.length / 64 + 2) off bs.length
  (pieces.foldl (fun (x : State × List Byte) e =>
    let key := x.1.bar2Key e.1
    (if stagingBase ≤ key then x.1.put key (x.2.take e.2) else x.1.enginePut key (x.2.take e.2), x.2.drop e.2)) (s, bs)).1

/-- BAR2_WRITE: dropped and counted unless the host owns the device and every byte is mapped. -/
def execBar2Write (off : Nat) (data : List Byte) (s : State) : Out :=
  if bar2Size < off + data.length then .next s
  else s.ownerWrite .host ((List.range data.length).all (fun i => s.bar2Has (s.bar2Key (off + i)))) (fun t => t.bar2Put off data)

/-! ### Other registers of BAR0 (R485, R493, R501) -/

/-- PLIM, at expert level. -/
def State.writePlim (s : State) (m : Master) (v : W64) : Out :=
  s.ownerWrite m (s.mgmt.expert && decide (1000 ≤ v.toNat) && decide (v.toNat ≤ 3200)) (fun t => t.updMgmt (fun x => { x with plim := v.toNat }))

/-- BAR2BASE. -/
def State.writeBar2base (s : State) (m : Master) (v : W64) : Out :=
  s.ownerWrite m (decide (v.toNat % 2 ^ 36 = 0) && decide (v.toNat < 2 ^ 52)) (fun t => t.updMgmt (fun x => { x with bar2base := v }))

/-- The offset names a read-only register. -/
def bar0ReadOnly (off : Nat) : Bool :=
  [0x0, 0x10, 0x38, 0x58, 0x60].contains off || (decide (0x100 ≤ off) && decide (off < 0x200)) || (decide (0x2000 ≤ off) && decide (off < 0x4000))
    || (decide (0x8000 ≤ off) && decide (off < 0x10000))

/-- BAR0_REGISTER_WRITE. A write to a reserved offset is dropped; the owner's write to a read-only register has no effect (R10). -/
def execBar0RegisterWrite (m : Master) (off : Nat) (v : W64) (s : State) : Out :=
  if off = 0x08 then execOwncas m v s
  else if off = 0x18 then execFwgo m v s
  else if off = 0x20 then execDevnum m v s
  else if off = 0x28 then execPtroot m v s
  else if off = 0x30 then execInvva m v s
  else if off = 0x40 then execRun m v s
  else if off = 0x48 then execRst m v s
  else if off = 0x50 then s.writePlim m v
  else if off = 0x68 then s.writeBar2base m v
  else if 0x1000 ≤ off ∧ off < 0x1200 ∧ off % 8 = 0 then execDoorbell m ((off - 0x1000) / 8) v s
  else if bar0ReadOnly off then s.ownerWrite m true id
  else .next s

/-! ### Clocks and limits (R484) -/

/-- CLOCK_THROTTLE on a reading of the average package power and of the hottest sensor: one step down above a limit, one step up
after each 100 ms below both (log entry 90). -/
def execClockThrottle (r : Reading) (s : State) : Out :=
  .next (s.updMgmt (fun x =>
    if x.plim < r.watts ∨ 95 ≤ r.degrees then { x with clock := min 2 (x.clock + 1), coolSince := none }
    else if 100 * r.watts < 95 * x.plim ∧ r.degrees < 90 then
      match x.coolSince with
      | none => { x with coolSince := some s.ns }
      | some t => if t + 100000000 ≤ s.ns then { x with clock := x.clock - 1, coolSince := some s.ns } else x
    else { x with coolSince := none }))

/-- THERMAL_TRIP: every clock stops, and a record is written. -/
def execThermalTrip (s : State) : Out := .next ((s.machineCheck 0x02 0 []).updMgmt (fun x => { x with tripped := true }))

/-! ### Soft errors and lasting faults (R494, R498) -/

/-- The unit whose count an error belongs to: a pseudo-channel counts over its pages. -/
def errKey : ErrUnit → ErrUnit
  | .hbm c _ => .hbm c 0
  | e => e

/-- The row of a unit in the table of R494. -/
def unitRow : ErrUnit → Nat
  | .hbm _ _ => 0
  | .bank _ _ => 1
  | .core _ => 2
  | .press _ => 3
  | .link _ => 4

/-- Window in nanoseconds, and threshold. -/
def State.errWindow (s : State) (e : ErrUnit) : Nat := nth 0 s.mgmt.errWindows (unitRow e)
def State.errThreshold (s : State) (e : ErrUnit) : Nat := nth 0 s.mgmt.errThresholds (unitRow e)

/-- The count of a unit in the window that holds the present time. -/
def State.errCount (s : State) (e : ErrUnit) : ErrCount :=
  let start := s.ns / s.errWindow e * s.errWindow e
  match s.mgmt.errs.find? (fun c => decide (c.unit = errKey e) && decide (c.start = start)) with
  | some c => c
  | none => { unit := errKey e, count := 0, start := start, pages := [] }

/-- A lasting fault of a link: it retrains; the third time within 60 s it stays DOWN. -/
def State.retrain (s : State) (l : Nat) : State :=
  let old := mget [] s.mgmt.retrains l
  let times := if 3 ≤ old.length then old else old.filter (fun t => decide (s.ns < t + 60000000000)) ++ [s.ns]
  let t := s.updMgmt (fun x => { x with retrains := mset [] x.retrains l times })
  (t.setLink l { t.link l with state := if 3 ≤ times.length then 0 else 1, lanes := 0 }).endCut

/-- What a lasting fault does. -/
def State.lasting (s : State) (e : ErrUnit) (pages : List Nat) : State :=
  match e with
  | .link l => s.retrain l
  | e => s.unitLost e pages

/-- CORRECTED_ERROR: counted in its unit's window; with the first count that is not below the threshold, which an owner may have
lowered meanwhile, the fault is a lasting one. -/
def execCorrectedError (e : ErrUnit) (s : State) : Out :=
  let c := s.errCount e
  let page := match e with | .hbm _ p => [p] | _ => []
  let now := !c.hit && decide (s.errThreshold e ≤ c.count + 1)
  let c' := { c with count := c.count + 1, pages := (c.pages ++ page).eraseDups, hit := c.hit || now }
  let t := s.updMgmt (fun x => { x with errs := x.errs.filter (fun y => decide (y.unit ≠ errKey e)) ++ [c'] })
  let t := match e with
    | .link l => t.setLink l { t.link l with fecc := holdAt 0xFFFF (t.link l).fecc }
    | _ => t
  .next (if now then t.lasting e c'.pages else t)

/-- FAULT_WINDOW_EXPIRY: the counter clears at the start of the next window. -/
def execFaultWindowExpiry (e : ErrUnit) (s : State) : Out :=
  .next (s.updMgmt (fun x => { x with
    errs := x.errs.filter (fun y => decide (y.unit ≠ errKey e) || decide (s.ns < y.start + s.errWindow e)) }))

/-- UNCORRECTABLE_ERROR: a granule of HBM4, pool memory, a local memory, a scratchpad, an instruction memory or a plane goes bad (R321,
R498), and the fault of its unit is a lasting one at once (R494). -/
def execUncorrectableError (granule : Nat) (s : State) : Out :=
  let k := 8 * granule
  let held := s.mapped k || (decide (2 ^ 56 ≤ k) && decide (k < localBase 1536)) || (decide (2 ^ 58 ≤ k) && decide (k < padBase 96))
    || (decide (2 ^ 59 ≤ k) && decide (k < imemBase 192)) || (decide (2 ^ 61 ≤ k) && decide (k < planeKey 192 0 0))
  .next (if held then
      let t := s.poisonAt granule
      match unitOfKey k with
      | some e => t.lasting e [k / 0x1000]
      | none => t
    else s)

/-! ### Accesses that have no row of their own (R423, R485, R490, R493, R495) -/

/-- Doubleword `w` of record `i` of MCLOG. -/
def Mgmt.logWord (g : Mgmt) (i w : Nat) : Nat :=
  let r := mget ⟨0, 0, 0, 0, true⟩ g.mclog i
  (match w with | 0 => r.time | 1 => r.word1 | 2 => r.word2 | _ => r.word3).toNat

/-- The doubleword at an offset of BAR0: a write-only register and a reserved offset read as 0 (R10, R485). -/
def State.bar0Word (s : State) (off : Nat) : Nat :=
  let g := s.mgmt
  match off with
  | 0x00 => g.own
  | 0x10 => (match g.bootst with | .wait => 0 | .check => 1 | .ready => 2 | .fail => 3) + g.bootFail.toNat * 4
  | 0x20 => g.devnum.toNat
  | 0x28 => g.ptroot.toNat
  | 0x38 => b2n g.inval.isNone
  | 0x50 => g.plim
  | 0x58 => g.denyHost + g.denyBoard * 2 ^ 16 + g.denyFab * 2 ^ 32
  | 0x60 => g.mchead.toNat + g.lost.toNat * 2 ^ 8
  | 0x68 => g.bar2base.toNat
  | _ =>
    if 0x100 ≤ off ∧ off < 0x200 then
      let e := mget (0, 0) g.hdm ((off - 0x100) / 16)
      (if off % 16 = 0 then e.1 else e.2).toNat
    else if 0x2000 ≤ off ∧ off < 0x4000 then g.logWord ((off - 0x2000) / 32) (off % 32 / 8)
    else if 0x8000 ≤ off ∧ off < 0x10000 then (Config.identity ((off - 0x8000) / 8)).toNat
    else 0

/-- A master has read record `i` of MCLOG (R495). -/
def Mgmt.logRead (g : Mgmt) (i : Nat) : Mgmt :=
  { g with mclog := g.mclog.map (fun e => if e.1 = i then (e.1, { e.2 with read := true }) else e) }

/-- A read of a doubleword of BAR0, which every master may make (R493). -/
def State.bar0Read (s : State) (m : Master) (off : Nat) : State :=
  let t := if 0x2000 ≤ off ∧ off < 0x4000 then s.updMgmt (fun g => g.logRead ((off - 0x2000) / 32)) else s
  { t with outbox := t.outbox ++ [OutMsg.register m (w64 (s.bar0Word off))] }

/-- Window and threshold of the units of one row of R494, at expert level (R493). -/
def State.setLimits (s : State) (e : ErrUnit) (window threshold : Nat) : State :=
  s.updMgmt (fun g => { g with
    errWindows := g.errWindows.set (unitRow e) window, errThresholds := g.errThresholds.set (unitRow e) threshold })

/-- An access of a master: a read of BAR0; at expert level limits and link counters; the owner's write into the staging area before
READY (R490). -/
def State.access (s : State) (m : Master) : Access → Out
  | .read off => .next (if off % 8 = 0 then s.bar0Read m off else s)
  | .limits e window threshold =>
    s.ownerWrite m (s.mgmt.expert && decide (1000000 ≤ window) && decide (window ≤ 60000000000) && decide (1 ≤ threshold)
      && decide (threshold ≤ 65535)) (fun t => t.setLimits e window threshold)
  | .clearLink l =>
    s.ownerWrite m (s.mgmt.expert && decide (l < 16)) (fun t => t.setLink l { t.link l with retry := 0, fecc := 0, ldown := 0 })
  | .stage off data =>
    s.ownerWrite m (decide (s.mgmt.bootst ≠ .ready) && decide (off + data.length ≤ 0x1000000)) (fun t => t.put (stagingBase + off) data)

end Sys2Proof.Machine
end

