-- ==== Sys2Proof/Machine/Integer.lean ====
section
/-! DEFINITION. Integer and logic, immediates, constants, bit fields, bit manipulation, CRC and hash, compares and condition bits
(06_strand_engine_compute.md R191 to R201). -/
namespace Sys2Proof.Machine

/-- gd := v with latency `lat`; available on strand slots and lookup slots. -/
def State.alu (s : State) (d : GReg) (v : W64) (lat : Nat) : Out := onBoth s (s.gives d v lat)

/-- kd := v (R199, R200, R209). -/
def State.cond (s : State) (d : KReg) (v : Bool) : Out := onBoth s (.ok (s.writeK d v) 4)

/-- A 32-bit value extended with copies of its bit 31. -/
def sx32 (v : W32) : W64 := v.signExtend 64
def lo32 (v : W64) : W32 := v.truncate 32
/-- The amounts gb[5:0] and gb[4:0] of shifts. -/
def amount64 (v : W64) : Nat := v.toNat % 64
def amount32 (v : W64) : Nat := v.toNat % 32

/-- Bits [127:64] of a product (R191). -/
def mulHigh (a b : Int) : W64 := BitVec.ofInt 64 (a * b / 2 ^ 64)

/-- ADD: ga + gb (R191). -/
def execAdd (d a b : GReg) (s : State) : Out := s.alu d (s.readG a + s.readG b) 4

/-- SUB: ga − gb (R191). -/
def execSub (d a b : GReg) (s : State) : Out := s.alu d (s.readG a - s.readG b) 4

/-- AND: ga AND gb (R191). -/
def execAnd (d a b : GReg) (s : State) : Out := s.alu d (s.readG a &&& s.readG b) 4

/-- OR: ga OR gb (R191). -/
def execOr (d a b : GReg) (s : State) : Out := s.alu d (s.readG a ||| s.readG b) 4

/-- XOR: ga XOR gb (R191). -/
def execXor (d a b : GReg) (s : State) : Out := s.alu d (s.readG a ^^^ s.readG b) 4

/-- ANDN: ga AND NOT gb (R191). -/
def execAndn (d a b : GReg) (s : State) : Out := s.alu d (s.readG a &&& ~~~(s.readG b)) 4

/-- ORN: ga OR NOT gb (R191). -/
def execOrn (d a b : GReg) (s : State) : Out := s.alu d (s.readG a ||| ~~~(s.readG b)) 4

/-- XNOR: NOT (ga XOR gb) (R191). -/
def execXnor (d a b : GReg) (s : State) : Out := s.alu d (~~~(s.readG a ^^^ s.readG b)) 4

/-- SLL: shift left by gb[5:0] (R191). -/
def execSll (d a b : GReg) (s : State) : Out := s.alu d (s.readG a <<< amount64 (s.readG b)) 4

/-- SRL: shift right, zeros enter (R191). -/
def execSrl (d a b : GReg) (s : State) : Out := s.alu d (s.readG a >>> amount64 (s.readG b)) 4

/-- SRA: shift right, copies of bit 63 enter (R191). -/
def execSra (d a b : GReg) (s : State) : Out := s.alu d ((s.readG a).sshiftRight (amount64 (s.readG b))) 4

/-- ROL: rotate left (R191). -/
def execRol (d a b : GReg) (s : State) : Out := s.alu d ((s.readG a).rotateLeft (amount64 (s.readG b))) 4

/-- ROR: rotate right (R191). -/
def execRor (d a b : GReg) (s : State) : Out := s.alu d ((s.readG a).rotateRight (amount64 (s.readG b))) 4

/-- MIN: signed minimum (R191). -/
def execMin (d a b : GReg) (s : State) : Out := s.alu d (if (s.readG b).slt (s.readG a) then s.readG b else s.readG a) 4

/-- MAX: signed maximum (R191). -/
def execMax (d a b : GReg) (s : State) : Out := s.alu d (if (s.readG a).slt (s.readG b) then s.readG b else s.readG a) 4

/-- MINU: unsigned minimum (R191). -/
def execMinu (d a b : GReg) (s : State) : Out := s.alu d (if s.readG b < s.readG a then s.readG b else s.readG a) 4

/-- MAXU: unsigned maximum (R191). -/
def execMaxu (d a b : GReg) (s : State) : Out := s.alu d (if s.readG a < s.readG b then s.readG b else s.readG a) 4

/-- ADDW: 32-bit sum, sign-extended (R191). -/
def execAddw (d a b : GReg) (s : State) : Out := s.alu d (sx32 (lo32 (s.readG a + s.readG b))) 4

/-- SUBW: 32-bit difference, sign-extended (R191). -/
def execSubw (d a b : GReg) (s : State) : Out := s.alu d (sx32 (lo32 (s.readG a - s.readG b))) 4

/-- SLLW: 32-bit shift left (R191). -/
def execSllw (d a b : GReg) (s : State) : Out := s.alu d (sx32 (lo32 (s.readG a) <<< amount32 (s.readG b))) 4

/-- SRLW: 32-bit shift right, zeros enter (R191). -/
def execSrlw (d a b : GReg) (s : State) : Out := s.alu d (sx32 (lo32 (s.readG a) >>> amount32 (s.readG b))) 4

/-- SRAW: 32-bit shift right, copies of bit 31 enter (R191). -/
def execSraw (d a b : GReg) (s : State) : Out := s.alu d (sx32 ((lo32 (s.readG a)).sshiftRight (amount32 (s.readG b)))) 4

/-- MUL: low half of the product (R191). -/
def execMul (d a b : GReg) (s : State) : Out := s.alu d (s.readG a * s.readG b) 6

/-- MULH: high half of the signed product (R191). -/
def execMulh (d a b : GReg) (s : State) : Out := s.alu d (mulHigh (s.readG a).toInt (s.readG b).toInt) 6

/-- MULHU: high half of the unsigned product (R191). -/
def execMulhu (d a b : GReg) (s : State) : Out := s.alu d (mulHigh (s.readG a).toNat (s.readG b).toNat) 6

/-- MULW: 32-bit product, sign-extended (R191). -/
def execMulw (d a b : GReg) (s : State) : Out := s.alu d (sx32 (lo32 (s.readG a * s.readG b))) 6

/-- SEL: ga if kN, else gb (R191). -/
def execSel (d a b : GReg) (k : KReg) (s : State) : Out :=
  s.alu d (if s.readK k then s.readG a else s.readG b) 4

/-! ### Immediates (R193 to R195) -/

/-- ADDI (R193). -/
def execAddi (d a : GReg) (i : BitVec 16) (s : State) : Out := s.alu d (s.readG a + sx i) 4

/-- ANDI (R193). -/
def execAndi (d a : GReg) (i : BitVec 16) (s : State) : Out := s.alu d (s.readG a &&& zx i) 4

/-- ORI (R193). -/
def execOri (d a : GReg) (i : BitVec 16) (s : State) : Out := s.alu d (s.readG a ||| zx i) 4

/-- XORI (R193). -/
def execXori (d a : GReg) (i : BitVec 16) (s : State) : Out := s.alu d (s.readG a ^^^ zx i) 4

/-- SLLI (R193). -/
def execSlli (d a : GReg) (k : BitVec 6) (s : State) : Out := s.alu d (s.readG a <<< k.toNat) 4

/-- SRLI (R193). -/
def execSrli (d a : GReg) (k : BitVec 6) (s : State) : Out := s.alu d (s.readG a >>> k.toNat) 4

/-- SRAI (R193). -/
def execSrai (d a : GReg) (k : BitVec 6) (s : State) : Out := s.alu d ((s.readG a).sshiftRight k.toNat) 4

/-- RORI (R193). -/
def execRori (d a : GReg) (k : BitVec 6) (s : State) : Out := s.alu d ((s.readG a).rotateRight k.toNat) 4

/-- imm16 at halfword `h`. -/
def halfAt (i : BitVec 16) (h : BitVec 2) : W64 := zx i <<< (16 * h.toNat)
def halfMask (h : BitVec 2) : W64 := halfAt 0xFFFF h

/-- MOVZ (R194). -/
def execMovz (d : GReg) (h : BitVec 2) (i : BitVec 16) (s : State) : Out := s.alu d (halfAt i h) 4
/-- MOVK: the other halfwords of gd keep their values (R194). -/
def execMovk (d : GReg) (h : BitVec 2) (i : BitVec 16) (s : State) : Out :=
  s.alu d ((s.readG d &&& ~~~(halfMask h)) ||| halfAt i h) 4
/-- MOVN (R194). -/
def execMovn (d : GReg) (h : BitVec 2) (i : BitVec 16) (s : State) : Out := s.alu d (~~~(halfAt i h)) 4

/-- The low `l` + 1 bits set. -/
def lowMask (l : BitVec 6) : W64 := BitVec.ofNat 64 (2 ^ (l.toNat + 1) - 1)
/-- A field of `l` + 1 bits from `p` upward, zero-extended and sign-extended (R195). -/
def fieldU (v : W64) (l p : BitVec 6) : W64 := (v >>> p.toNat) &&& lowMask l
def fieldS (v : W64) (l p : BitVec 6) : W64 := BitVec.ofInt 64 (sfield (l.toNat + 1) (v.toNat / 2 ^ p.toNat))

/-- EXTU (R195). -/
def execExtu (d a : GReg) (l p : BitVec 6) (s : State) : Out := s.alu d (fieldU (s.readG a) l p) 4
/-- EXTS (R195). -/
def execExts (d a : GReg) (l p : BitVec 6) (s : State) : Out := s.alu d (fieldS (s.readG a) l p) 4
/-- INS: the other bits of gd keep their values (R195). -/
def execIns (d a : GReg) (l p : BitVec 6) (s : State) : Out :=
  s.alu d ((s.readG d &&& ~~~(lowMask l <<< p.toNat)) ||| ((s.readG a &&& lowMask l) <<< p.toNat)) 4

/-! ### Bit manipulation, CRC and hash (R196 to R198) -/

/-- The number of leading zeros of 64 bits. -/
def clz64 (v : Nat) : Nat := if v = 0 then 64 else 63 - Nat.log2 v
/-- The number of trailing zeros of 64 bits. -/
def ctz64 (v : Nat) : Nat := (lowest 64 (fun i => nb v i)).getD 64
def brev64 (v : Nat) : Nat := bitsOf 64 (fun i => nb v (63 - i))
/-- The bytes of a doubleword in the other order. -/
def bswap64 (v : Nat) : Nat := leNat (leBytes 8 v).reverse

/-- CLZ (R196). -/
def execClz (d a : GReg) (s : State) : Out := s.alu d (w64 (clz64 (s.readG a).toNat)) 4
/-- CTZ (R196). -/
def execCtz (d a : GReg) (s : State) : Out := s.alu d (w64 (ctz64 (s.readG a).toNat)) 4
/-- POPC (R196). -/
def execPopc (d a : GReg) (s : State) : Out := s.alu d (w64 (ones (s.readG a).toNat 64)) 4
/-- BREV (R196). -/
def execBrev (d a : GReg) (s : State) : Out := s.alu d (w64 (brev64 (s.readG a).toNat)) 4
/-- BSWAP (R196). -/
def execBswap (d a : GReg) (s : State) : Out := s.alu d (w64 (bswap64 (s.readG a).toNat)) 4
/-- SEXT.B (R196). -/
def execSextB (d a : GReg) (s : State) : Out := s.alu d (sx ((s.readG a).truncate 8)) 4
/-- SEXT.H (R196). -/
def execSextH (d a : GReg) (s : State) : Out := s.alu d (sx ((s.readG a).truncate 16)) 4
/-- SEXT.W (R196). -/
def execSextW (d a : GReg) (s : State) : Out := s.alu d (sx32 (lo32 (s.readG a))) 4
/-- ZEXT.W (R196). -/
def execZextW (d a : GReg) (s : State) : Out := s.alu d (zx (lo32 (s.readG a))) 4

/-- One bit of the CRC-32C step (R197). -/
def crcBit (c : W32) (b : Bool) : W32 := if c.getLsbD 0 != b then (c >>> 1) ^^^ 0x82F63B78#32 else c >>> 1
/-- The step over the low 8 × n bits of gb (R197). -/
def crcStep (n : Nat) (c : W32) (v : W64) : W32 := (List.range (8 * n)).foldl (fun acc i => crcBit acc (v.getLsbD i)) c
def State.crc (s : State) (d a b : GReg) (n : Nat) : Out := s.alu d (zx (crcStep n (lo32 (s.readG a)) (s.readG b))) 4

/-- CRC.B (R197). -/
def execCrcB (d a b : GReg) (s : State) : Out := s.crc d a b 1
/-- CRC.H (R197). -/
def execCrcH (d a b : GReg) (s : State) : Out := s.crc d a b 2
/-- CRC.W (R197). -/
def execCrcW (d a b : GReg) (s : State) : Out := s.crc d a b 4
/-- CRC.D (R197). -/
def execCrcD (d a b : GReg) (s : State) : Out := s.crc d a b 8

/-- The mix of 64 bits (R198). -/
def hmix (x : W64) : W64 :=
  let x := x ^^^ (x >>> 31)
  let x := x * 0xB5A34E2719C6D08B#64
  let x := x ^^^ (x >>> 27)
  let x := x * 0xD3E18A5F2C4796B3#64
  x ^^^ (x >>> 33)

/-- HMIX (R198). -/
def execHmix (d a b : GReg) (s : State) : Out := s.alu d (hmix (s.readG a ^^^ s.readG b)) 6

/-! ### Compares and condition bits (R199 to R201) -/

/-- CEQ (R199). -/
def execCeq (k : KReg) (a b : GReg) (s : State) : Out := s.cond k (s.readG a == s.readG b)

/-- CNE (R199). -/
def execCne (k : KReg) (a b : GReg) (s : State) : Out := s.cond k (s.readG a != s.readG b)

/-- CLT (R199). -/
def execClt (k : KReg) (a b : GReg) (s : State) : Out := s.cond k ((s.readG a).slt (s.readG b))

/-- CGE (R199). -/
def execCge (k : KReg) (a b : GReg) (s : State) : Out := s.cond k (!(s.readG a).slt (s.readG b))

/-- CLTU (R199). -/
def execCltu (k : KReg) (a b : GReg) (s : State) : Out := s.cond k ((s.readG a).ult (s.readG b))

/-- CGEU (R199). -/
def execCgeu (k : KReg) (a b : GReg) (s : State) : Out := s.cond k (!(s.readG a).ult (s.readG b))

/-- CTST (R199). -/
def execCtst (k : KReg) (a b : GReg) (s : State) : Out := s.cond k ((s.readG a &&& s.readG b) != 0)

/-- KAND (R199). -/
def execKand (k p q : KReg) (s : State) : Out := s.cond k (s.readK p && s.readK q)

/-- KOR (R199). -/
def execKor (k p q : KReg) (s : State) : Out := s.cond k (s.readK p || s.readK q)

/-- KXOR (R199). -/
def execKxor (k p q : KReg) (s : State) : Out := s.cond k (s.readK p != s.readK q)

/-- KANDN (R199). -/
def execKandn (k p q : KReg) (s : State) : Out := s.cond k (s.readK p && !s.readK q)

/-- KNOT (R199). -/
def execKnot (k p : KReg) (s : State) : Out := s.cond k (!s.readK p)
/-- KSET (R199). -/
def execKset (k : KReg) (s : State) : Out := s.cond k true
/-- KCLR (R199). -/
def execKclr (k : KReg) (s : State) : Out := s.cond k false

/-- CEQI (R200). -/
def execCeqi (k : KReg) (a : GReg) (i : BitVec 16) (s : State) : Out := s.cond k (s.readG a == sx i)

/-- CNEI (R200). -/
def execCnei (k : KReg) (a : GReg) (i : BitVec 16) (s : State) : Out := s.cond k (s.readG a != sx i)

/-- CLTI (R200). -/
def execClti (k : KReg) (a : GReg) (i : BitVec 16) (s : State) : Out := s.cond k ((s.readG a).slt (sx i))

/-- CGEI (R200). -/
def execCgei (k : KReg) (a : GReg) (i : BitVec 16) (s : State) : Out := s.cond k (!(s.readG a).slt (sx i))

/-- CLTUI (R200). -/
def execCltui (k : KReg) (a : GReg) (i : BitVec 16) (s : State) : Out := s.cond k ((s.readG a).ult (zx i))

/-- CGEUI (R200). -/
def execCgeui (k : KReg) (a : GReg) (i : BitVec 16) (s : State) : Out := s.cond k (!(s.readG a).ult (zx i))

/-- PKK: the condition bits that the mask names (R201). -/
def execPkk (d : GReg) (m : BitVec 8) (s : State) : Out := s.alu d (zx (s.bk.k &&& m)) 4
/-- UPK: the condition bits that the mask names take bits of ga (R201). -/
def execUpk (a : GReg) (m : BitVec 8) (s : State) : Out :=
  onBoth s (.ok (s.updBk (fun b => { b with k := (b.k &&& ~~~m) ||| ((s.readG a).truncate 8 &&& m) })) 4)

end Sys2Proof.Machine
end

