-- ==== Sys2Proof/Machine/Dispatch.lean ====
section
/-! DEFINITION. The dispatch: one arm per step of the opcode table, each one call of its meaning. -/
namespace Sys2Proof.Machine

def exec (i : Instr) (s : State) : Host.Outcome State Fault Refusal :=
  match i with
  | .add x1 x2 x3 => Sys2Proof.Machine.execAdd x1 x2 x3 s
  | .sub x1 x2 x3 => Sys2Proof.Machine.execSub x1 x2 x3 s
  | .and x1 x2 x3 => Sys2Proof.Machine.execAnd x1 x2 x3 s
  | .or x1 x2 x3 => Sys2Proof.Machine.execOr x1 x2 x3 s
  | .xor x1 x2 x3 => Sys2Proof.Machine.execXor x1 x2 x3 s
  | .andn x1 x2 x3 => Sys2Proof.Machine.execAndn x1 x2 x3 s
  | .orn x1 x2 x3 => Sys2Proof.Machine.execOrn x1 x2 x3 s
  | .xnor x1 x2 x3 => Sys2Proof.Machine.execXnor x1 x2 x3 s
  | .sll x1 x2 x3 => Sys2Proof.Machine.execSll x1 x2 x3 s
  | .srl x1 x2 x3 => Sys2Proof.Machine.execSrl x1 x2 x3 s
  | .sra x1 x2 x3 => Sys2Proof.Machine.execSra x1 x2 x3 s
  | .rol x1 x2 x3 => Sys2Proof.Machine.execRol x1 x2 x3 s
  | .ror x1 x2 x3 => Sys2Proof.Machine.execRor x1 x2 x3 s
  | .min x1 x2 x3 => Sys2Proof.Machine.execMin x1 x2 x3 s
  | .max x1 x2 x3 => Sys2Proof.Machine.execMax x1 x2 x3 s
  | .minu x1 x2 x3 => Sys2Proof.Machine.execMinu x1 x2 x3 s
  | .maxu x1 x2 x3 => Sys2Proof.Machine.execMaxu x1 x2 x3 s
  | .addw x1 x2 x3 => Sys2Proof.Machine.execAddw x1 x2 x3 s
  | .subw x1 x2 x3 => Sys2Proof.Machine.execSubw x1 x2 x3 s
  | .sllw x1 x2 x3 => Sys2Proof.Machine.execSllw x1 x2 x3 s
  | .srlw x1 x2 x3 => Sys2Proof.Machine.execSrlw x1 x2 x3 s
  | .sraw x1 x2 x3 => Sys2Proof.Machine.execSraw x1 x2 x3 s
  | .mul x1 x2 x3 => Sys2Proof.Machine.execMul x1 x2 x3 s
  | .mulh x1 x2 x3 => Sys2Proof.Machine.execMulh x1 x2 x3 s
  | .mulhu x1 x2 x3 => Sys2Proof.Machine.execMulhu x1 x2 x3 s
  | .mulw x1 x2 x3 => Sys2Proof.Machine.execMulw x1 x2 x3 s
  | .sel x1 x2 x3 x4 => Sys2Proof.Machine.execSel x1 x2 x3 x4 s
  | .clz x1 x2 => Sys2Proof.Machine.execClz x1 x2 s
  | .ctz x1 x2 => Sys2Proof.Machine.execCtz x1 x2 s
  | .popc x1 x2 => Sys2Proof.Machine.execPopc x1 x2 s
  | .brev x1 x2 => Sys2Proof.Machine.execBrev x1 x2 s
  | .bswap x1 x2 => Sys2Proof.Machine.execBswap x1 x2 s
  | .sextB x1 x2 => Sys2Proof.Machine.execSextB x1 x2 s
  | .sextH x1 x2 => Sys2Proof.Machine.execSextH x1 x2 s
  | .sextW x1 x2 => Sys2Proof.Machine.execSextW x1 x2 s
  | .zextW x1 x2 => Sys2Proof.Machine.execZextW x1 x2 s
  | .crcB x1 x2 x3 => Sys2Proof.Machine.execCrcB x1 x2 x3 s
  | .crcH x1 x2 x3 => Sys2Proof.Machine.execCrcH x1 x2 x3 s
  | .crcW x1 x2 x3 => Sys2Proof.Machine.execCrcW x1 x2 x3 s
  | .crcD x1 x2 x3 => Sys2Proof.Machine.execCrcD x1 x2 x3 s
  | .hmix x1 x2 x3 => Sys2Proof.Machine.execHmix x1 x2 x3 s
  | .ceq x1 x2 x3 => Sys2Proof.Machine.execCeq x1 x2 x3 s
  | .cne x1 x2 x3 => Sys2Proof.Machine.execCne x1 x2 x3 s
  | .clt x1 x2 x3 => Sys2Proof.Machine.execClt x1 x2 x3 s
  | .cge x1 x2 x3 => Sys2Proof.Machine.execCge x1 x2 x3 s
  | .cltu x1 x2 x3 => Sys2Proof.Machine.execCltu x1 x2 x3 s
  | .cgeu x1 x2 x3 => Sys2Proof.Machine.execCgeu x1 x2 x3 s
  | .ctst x1 x2 x3 => Sys2Proof.Machine.execCtst x1 x2 x3 s
  | .kand x1 x2 x3 => Sys2Proof.Machine.execKand x1 x2 x3 s
  | .kor x1 x2 x3 => Sys2Proof.Machine.execKor x1 x2 x3 s
  | .kxor x1 x2 x3 => Sys2Proof.Machine.execKxor x1 x2 x3 s
  | .kandn x1 x2 x3 => Sys2Proof.Machine.execKandn x1 x2 x3 s
  | .knot x1 x2 => Sys2Proof.Machine.execKnot x1 x2 s
  | .kset x1 => Sys2Proof.Machine.execKset x1 s
  | .kclr x1 => Sys2Proof.Machine.execKclr x1 s
  | .fadd x1 x2 x3 x4 => Sys2Proof.Machine.execFadd x1 x2 x3 x4 s
  | .fsub x1 x2 x3 x4 => Sys2Proof.Machine.execFsub x1 x2 x3 x4 s
  | .fmul x1 x2 x3 x4 => Sys2Proof.Machine.execFmul x1 x2 x3 x4 s
  | .fma x1 x2 x3 x4 => Sys2Proof.Machine.execFma x1 x2 x3 x4 s
  | .fmin x1 x2 x3 x4 => Sys2Proof.Machine.execFmin x1 x2 x3 x4 s
  | .fmax x1 x2 x3 x4 => Sys2Proof.Machine.execFmax x1 x2 x3 x4 s
  | .fabs x1 x2 x3 => Sys2Proof.Machine.execFabs x1 x2 x3 s
  | .fneg x1 x2 x3 => Sys2Proof.Machine.execFneg x1 x2 x3 s
  | .fcpys x1 x2 x3 x4 => Sys2Proof.Machine.execFcpys x1 x2 x3 x4 s
  | .frcp x1 x2 x3 => Sys2Proof.Machine.execFrcp x1 x2 x3 s
  | .frsq x1 x2 x3 => Sys2Proof.Machine.execFrsq x1 x2 x3 s
  | .fclass x1 x2 x3 => Sys2Proof.Machine.execFclass x1 x2 x3 s
  | .fceq x1 x2 x3 x4 => Sys2Proof.Machine.execFceq x1 x2 x3 x4 s
  | .fclt x1 x2 x3 x4 => Sys2Proof.Machine.execFclt x1 x2 x3 x4 s
  | .fcle x1 x2 x3 x4 => Sys2Proof.Machine.execFcle x1 x2 x3 x4 s
  | .fcun x1 x2 x3 x4 => Sys2Proof.Machine.execFcun x1 x2 x3 x4 s
  | .fcvtSB x1 x2 => Sys2Proof.Machine.execFcvtSB x1 x2 s
  | .fcvtBS x1 x2 => Sys2Proof.Machine.execFcvtBS x1 x2 s
  | .ftow x1 x2 x3 x4 => Sys2Proof.Machine.execFtow x1 x2 x3 x4 s
  | .ftowu x1 x2 x3 x4 => Sys2Proof.Machine.execFtowu x1 x2 x3 x4 s
  | .ftol x1 x2 x3 x4 => Sys2Proof.Machine.execFtol x1 x2 x3 x4 s
  | .ftolu x1 x2 x3 x4 => Sys2Proof.Machine.execFtolu x1 x2 x3 x4 s
  | .wtof x1 x2 x3 => Sys2Proof.Machine.execWtof x1 x2 x3 s
  | .wutof x1 x2 x3 => Sys2Proof.Machine.execWutof x1 x2 x3 s
  | .ltof x1 x2 x3 => Sys2Proof.Machine.execLtof x1 x2 x3 s
  | .lutof x1 x2 x3 => Sys2Proof.Machine.execLutof x1 x2 x3 s
  | .addi x1 x2 x3 => Sys2Proof.Machine.execAddi x1 x2 x3 s
  | .andi x1 x2 x3 => Sys2Proof.Machine.execAndi x1 x2 x3 s
  | .ori x1 x2 x3 => Sys2Proof.Machine.execOri x1 x2 x3 s
  | .xori x1 x2 x3 => Sys2Proof.Machine.execXori x1 x2 x3 s
  | .slli x1 x2 x3 => Sys2Proof.Machine.execSlli x1 x2 x3 s
  | .srli x1 x2 x3 => Sys2Proof.Machine.execSrli x1 x2 x3 s
  | .srai x1 x2 x3 => Sys2Proof.Machine.execSrai x1 x2 x3 s
  | .rori x1 x2 x3 => Sys2Proof.Machine.execRori x1 x2 x3 s
  | .ceqi x1 x2 x3 => Sys2Proof.Machine.execCeqi x1 x2 x3 s
  | .cnei x1 x2 x3 => Sys2Proof.Machine.execCnei x1 x2 x3 s
  | .clti x1 x2 x3 => Sys2Proof.Machine.execClti x1 x2 x3 s
  | .cgei x1 x2 x3 => Sys2Proof.Machine.execCgei x1 x2 x3 s
  | .cltui x1 x2 x3 => Sys2Proof.Machine.execCltui x1 x2 x3 s
  | .cgeui x1 x2 x3 => Sys2Proof.Machine.execCgeui x1 x2 x3 s
  | .movz x1 x2 x3 => Sys2Proof.Machine.execMovz x1 x2 x3 s
  | .movk x1 x2 x3 => Sys2Proof.Machine.execMovk x1 x2 x3 s
  | .movn x1 x2 x3 => Sys2Proof.Machine.execMovn x1 x2 x3 s
  | .extu x1 x2 x3 x4 => Sys2Proof.Machine.execExtu x1 x2 x3 x4 s
  | .exts x1 x2 x3 x4 => Sys2Proof.Machine.execExts x1 x2 x3 x4 s
  | .ins x1 x2 x3 x4 => Sys2Proof.Machine.execIns x1 x2 x3 x4 s
  | .pkk x1 x2 => Sys2Proof.Machine.execPkk x1 x2 s
  | .upk x1 x2 => Sys2Proof.Machine.execUpk x1 x2 s
  | .beq x1 x2 x3 => Sys2Proof.Machine.execBeq x1 x2 x3 s
  | .bne x1 x2 x3 => Sys2Proof.Machine.execBne x1 x2 x3 s
  | .blt x1 x2 x3 => Sys2Proof.Machine.execBlt x1 x2 x3 s
  | .bge x1 x2 x3 => Sys2Proof.Machine.execBge x1 x2 x3 s
  | .bltu x1 x2 x3 => Sys2Proof.Machine.execBltu x1 x2 x3 s
  | .bgeu x1 x2 x3 => Sys2Proof.Machine.execBgeu x1 x2 x3 s
  | .bkt x1 x2 => Sys2Proof.Machine.execBkt x1 x2 s
  | .bkf x1 x2 => Sys2Proof.Machine.execBkf x1 x2 s
  | .j x1 => Sys2Proof.Machine.execJ x1 s
  | .call x1 x2 => Sys2Proof.Machine.execCall x1 x2 s
  | .jr x1 => Sys2Proof.Machine.execJr x1 s
  | .callr x1 x2 => Sys2Proof.Machine.execCallr x1 x2 s
  | .ret => Sys2Proof.Machine.execRet s
  | .spl x1 x2 => Sys2Proof.Machine.execSpl x1 x2 s
  | .fil x1 x2 => Sys2Proof.Machine.execFil x1 x2 s
  | .ld x1 x2 x3 x4 => Sys2Proof.Machine.execLd x1 x2 x3 x4 s
  | .st x1 x2 x3 x4 => Sys2Proof.Machine.execSt x1 x2 x3 x4 s
  | .lda x1 x2 x3 x4 x5 x6 x7 => Sys2Proof.Machine.execLda x1 x2 x3 x4 x5 x6 x7 s
  | .sta x1 x2 x3 x4 x5 x6 x7 => Sys2Proof.Machine.execSta x1 x2 x3 x4 x5 x6 x7 s
  | .amoswap x1 x2 x3 x4 x5 x6 x7 => Sys2Proof.Machine.execAmoswap x1 x2 x3 x4 x5 x6 x7 s
  | .amocas x1 x2 x3 x4 x5 x6 x7 => Sys2Proof.Machine.execAmocas x1 x2 x3 x4 x5 x6 x7 s
  | .amoadd x1 x2 x3 x4 x5 x6 x7 => Sys2Proof.Machine.execAmoadd x1 x2 x3 x4 x5 x6 x7 s
  | .amoand x1 x2 x3 x4 x5 x6 x7 => Sys2Proof.Machine.execAmoand x1 x2 x3 x4 x5 x6 x7 s
  | .amoor x1 x2 x3 x4 x5 x6 x7 => Sys2Proof.Machine.execAmoor x1 x2 x3 x4 x5 x6 x7 s
  | .amoxor x1 x2 x3 x4 x5 x6 x7 => Sys2Proof.Machine.execAmoxor x1 x2 x3 x4 x5 x6 x7 s
  | .amomin x1 x2 x3 x4 x5 x6 x7 => Sys2Proof.Machine.execAmomin x1 x2 x3 x4 x5 x6 x7 s
  | .amomax x1 x2 x3 x4 x5 x6 x7 => Sys2Proof.Machine.execAmomax x1 x2 x3 x4 x5 x6 x7 s
  | .amominu x1 x2 x3 x4 x5 x6 x7 => Sys2Proof.Machine.execAmominu x1 x2 x3 x4 x5 x6 x7 s
  | .amomaxu x1 x2 x3 x4 x5 x6 x7 => Sys2Proof.Machine.execAmomaxu x1 x2 x3 x4 x5 x6 x7 s
  | .amofadd x1 x2 x3 x4 x5 x6 => Sys2Proof.Machine.execAmofadd x1 x2 x3 x4 x5 x6 s
  | .ll x1 x2 x3 x4 x5 => Sys2Proof.Machine.execLl x1 x2 x3 x4 x5 s
  | .lm x1 x2 x3 x4 x5 => Sys2Proof.Machine.execLm x1 x2 x3 x4 x5 s
  | .sl x1 x2 x3 x4 => Sys2Proof.Machine.execSl x1 x2 x3 x4 s
  | .sm x1 x2 x3 x4 => Sys2Proof.Machine.execSm x1 x2 x3 x4 s
  | .xlat x1 x2 x3 x4 => Sys2Proof.Machine.execXlat x1 x2 x3 x4 s
  | .hdrop x1 => Sys2Proof.Machine.execHdrop x1 s
  | .pref x1 x2 x3 => Sys2Proof.Machine.execPref x1 x2 x3 s
  | .fence x1 x2 => Sys2Proof.Machine.execFence x1 x2 s
  | .ifence => Sys2Proof.Machine.execIfence s
  | .rdid x1 x2 => Sys2Proof.Machine.execRdid x1 x2 s
  | .time x1 => Sys2Proof.Machine.execTime x1 s
  | .trap x1 => Sys2Proof.Machine.execTrap x1 s
  | .eret => Sys2Proof.Machine.execEret s
  | .mfsr x1 x2 => Sys2Proof.Machine.execMfsr x1 x2 s
  | .mtsr x1 x2 => Sys2Proof.Machine.execMtsr x1 x2 s
  | .xget x1 x2 x3 => Sys2Proof.Machine.execXget x1 x2 x3 s
  | .xput x1 x2 x3 => Sys2Proof.Machine.execXput x1 x2 x3 s
  | .start x1 x2 => Sys2Proof.Machine.execStart x1 x2 s
  | .spawn x1 x2 x3 => Sys2Proof.Machine.execSpawn x1 x2 x3 s
  | .exit => Sys2Proof.Machine.execExit s
  | .yield x1 => Sys2Proof.Machine.execYield x1 s
  | .waitq x1 x2 => Sys2Proof.Machine.execWaitq x1 x2 s
  | .postq x1 x2 x3 x4 => Sys2Proof.Machine.execPostq x1 x2 x3 x4 s
  | .taskdec x1 x2 => Sys2Proof.Machine.execTaskdec x1 x2 s
  | .msend x1 x2 x3 => Sys2Proof.Machine.execMsend x1 x2 x3 s
  | .mrecv x1 x2 => Sys2Proof.Machine.execMrecv x1 x2 s
  | .pmerge x1 x2 x3 => Sys2Proof.Machine.execPmerge x1 x2 x3 s
  | .topen x1 x2 x3 => Sys2Proof.Machine.execTopen x1 x2 x3 s
  | .twrH x1 x2 => Sys2Proof.Machine.execTwrH x1 x2 s
  | .twrW x1 x2 => Sys2Proof.Machine.execTwrW x1 x2 s
  | .twrD x1 x2 => Sys2Proof.Machine.execTwrD x1 x2 s
  | .tpos x1 x2 => Sys2Proof.Machine.execTpos x1 x2 s
  | .trmap x1 x2 => Sys2Proof.Machine.execTrmap x1 x2 s
  | .tmaskOr x1 x2 => Sys2Proof.Machine.execTmaskOr x1 x2 s
  | .tmaskClr x1 x2 => Sys2Proof.Machine.execTmaskClr x1 x2 s
  | .tmaskSet x1 x2 => Sys2Proof.Machine.execTmaskSet x1 x2 s
  | .tstat x1 x2 x3 => Sys2Proof.Machine.execTstat x1 x2 x3 s
  | .tdrop x1 => Sys2Proof.Machine.execTdrop x1 s
  | .seal x1 x2 => Sys2Proof.Machine.execSeal x1 x2 s
  | .tcnt x1 x2 x3 => Sys2Proof.Machine.execTcnt x1 x2 x3 s
  | .cpySetr x1 x2 x3 => Sys2Proof.Machine.execCpySetr x1 x2 x3 s
  | .cpyGetr x1 x2 x3 => Sys2Proof.Machine.execCpyGetr x1 x2 x3 s
  | .cpyDesc x1 x2 x3 => Sys2Proof.Machine.execCpyDesc x1 x2 x3 s
  | .cpyDfree x1 x2 => Sys2Proof.Machine.execCpyDfree x1 x2 s
  | .cpyLin x1 x2 => Sys2Proof.Machine.execCpyLin x1 x2 s
  | .cpyTen x1 x2 => Sys2Proof.Machine.execCpyTen x1 x2 s
  | .cpyTile x1 x2 x3 x4 x5 x6 => Sys2Proof.Machine.execCpyTile x1 x2 x3 x4 x5 x6 s
  | .cpyWblk x1 x2 x3 x4 => Sys2Proof.Machine.execCpyWblk x1 x2 x3 x4 s
  | .cpyRblk x1 x2 => Sys2Proof.Machine.execCpyRblk x1 x2 s
  | .cpyKvg x1 x2 => Sys2Proof.Machine.execCpyKvg x1 x2 s
  | .cpyPgin x1 x2 x3 => Sys2Proof.Machine.execCpyPgin x1 x2 x3 s
  | .cpyPgout x1 x2 x3 => Sys2Proof.Machine.execCpyPgout x1 x2 x3 s
  | .cpyAbort x1 x2 => Sys2Proof.Machine.execCpyAbort x1 x2 s
  | .muGetr x1 x2 x3 => Sys2Proof.Machine.execMuGetr x1 x2 x3 s
  | .muSetr x1 x2 x3 => Sys2Proof.Machine.execMuSetr x1 x2 x3 s
  | .muGets x1 x2 x3 => Sys2Proof.Machine.execMuGets x1 x2 x3 s
  | .muSets x1 x2 x3 => Sys2Proof.Machine.execMuSets x1 x2 x3 s
  | .muImld x1 x2 x3 => Sys2Proof.Machine.execMuImld x1 x2 x3 s
  | .muStart x1 x2 => Sys2Proof.Machine.execMuStart x1 x2 s
  | .muStop x1 x2 => Sys2Proof.Machine.execMuStop x1 x2 s
  | .muReset x1 => Sys2Proof.Machine.execMuReset x1 s
  | .muSave x1 x2 x3 => Sys2Proof.Machine.execMuSave x1 x2 x3 s
  | .muLoad x1 x2 x3 => Sys2Proof.Machine.execMuLoad x1 x2 x3 s
  | .muResume x1 => Sys2Proof.Machine.execMuResume x1 s
  | .lkPost x1 x2 x3 => Sys2Proof.Machine.execLkPost x1 x2 x3 s
  | .lkImld x1 x2 => Sys2Proof.Machine.execLkImld x1 x2 s
  | .lkRun x1 x2 => Sys2Proof.Machine.execLkRun x1 x2 s
  | .lkHalt x1 x2 => Sys2Proof.Machine.execLkHalt x1 x2 s
  | .lkStat x1 x2 x3 => Sys2Proof.Machine.execLkStat x1 x2 x3 s
  | .lkTdesc x1 x2 x3 => Sys2Proof.Machine.execLkTdesc x1 x2 x3 s
  | .lkTfree x1 x2 => Sys2Proof.Machine.execLkTfree x1 x2 s
  | .lkBopen x1 => Sys2Proof.Machine.execLkBopen x1 s
  | .lkFetch x1 x2 => Sys2Proof.Machine.execLkFetch x1 x2 s
  | .lkBclose x1 x2 => Sys2Proof.Machine.execLkBclose x1 x2 s
  | .lkBdrop x1 => Sys2Proof.Machine.execLkBdrop x1 s
  | .lkSeal x1 x2 => Sys2Proof.Machine.execLkSeal x1 x2 s
  | .lkWclr => Sys2Proof.Machine.execLkWclr s
  | .lkFib x1 x2 x3 x4 => Sys2Proof.Machine.execLkFib x1 x2 x3 x4 s
  | .lkSpout x1 x2 x3 => Sys2Proof.Machine.execLkSpout x1 x2 x3 s
  | .lkGetc x1 x2 => Sys2Proof.Machine.execLkGetc x1 x2 s
  | .kvcfg x1 x2 => Sys2Proof.Machine.execKvcfg x1 x2 s
  | .kvmatch x1 x2 x3 => Sys2Proof.Machine.execKvmatch x1 x2 x3 s
  | .kvinsert x1 x2 => Sys2Proof.Machine.execKvinsert x1 x2 s
  | .kvappend x1 x2 => Sys2Proof.Machine.execKvappend x1 x2 s
  | .kvref x1 x2 => Sys2Proof.Machine.execKvref x1 x2 s
  | .kvunref x1 x2 x3 => Sys2Proof.Machine.execKvunref x1 x2 x3 s
  | .kvpin x1 x2 => Sys2Proof.Machine.execKvpin x1 x2 s
  | .kvunpin x1 x2 => Sys2Proof.Machine.execKvunpin x1 x2 s
  | .kvbt x1 x2 => Sys2Proof.Machine.execKvbt x1 x2 s
  | .kvtier x1 x2 => Sys2Proof.Machine.execKvtier x1 x2 s
  | .kvstat x1 x2 => Sys2Proof.Machine.execKvstat x1 x2 s
  | .fabSetr x1 x2 x3 => Sys2Proof.Machine.execFabSetr x1 x2 x3 s
  | .fabGetr x1 x2 x3 => Sys2Proof.Machine.execFabGetr x1 x2 x3 s
  | .fabPut x1 x2 => Sys2Proof.Machine.execFabPut x1 x2 s
  | .fabGet x1 x2 => Sys2Proof.Machine.execFabGet x1 x2 s
  | .fabPuts x1 x2 => Sys2Proof.Machine.execFabPuts x1 x2 s
  | .fabTput x1 x2 x3 => Sys2Proof.Machine.execFabTput x1 x2 x3 s
  | .fabSeal x1 x2 x3 => Sys2Proof.Machine.execFabSeal x1 x2 x3 s
  | .fabAred x1 x2 x3 => Sys2Proof.Machine.execFabAred x1 x2 x3 s
  | .fabGrp x1 x2 x3 => Sys2Proof.Machine.execFabGrp x1 x2 x3 s
  | .fabWin x1 x2 x3 => Sys2Proof.Machine.execFabWin x1 x2 x3 s
  | .fabWfree x1 x2 => Sys2Proof.Machine.execFabWfree x1 x2 s
  | .fabLstat x1 x2 => Sys2Proof.Machine.execFabLstat x1 x2 s
  | .fabLda x1 x2 x3 x4 => Sys2Proof.Machine.execFabLda x1 x2 x3 x4 s
  | .fabSta x1 x2 x3 x4 => Sys2Proof.Machine.execFabSta x1 x2 x3 x4 s
  | .fabAmoswap x1 x2 x3 x4 => Sys2Proof.Machine.execFabAmoswap x1 x2 x3 x4 s
  | .fabAmocas x1 x2 x3 x4 x5 => Sys2Proof.Machine.execFabAmocas x1 x2 x3 x4 x5 s
  | .fabAmoadd x1 x2 x3 x4 => Sys2Proof.Machine.execFabAmoadd x1 x2 x3 x4 s
  | .fabAmoand x1 x2 x3 x4 => Sys2Proof.Machine.execFabAmoand x1 x2 x3 x4 s
  | .fabAmoor x1 x2 x3 x4 => Sys2Proof.Machine.execFabAmoor x1 x2 x3 x4 s
  | .fabAmoxor x1 x2 x3 x4 => Sys2Proof.Machine.execFabAmoxor x1 x2 x3 x4 s
  | .fabAmomin x1 x2 x3 x4 => Sys2Proof.Machine.execFabAmomin x1 x2 x3 x4 s
  | .fabAmomax x1 x2 x3 x4 => Sys2Proof.Machine.execFabAmomax x1 x2 x3 x4 s
  | .fabAmominu x1 x2 x3 x4 => Sys2Proof.Machine.execFabAmominu x1 x2 x3 x4 s
  | .fabAmomaxu x1 x2 x3 x4 => Sys2Proof.Machine.execFabAmomaxu x1 x2 x3 x4 s
  | .fabAmofadd x1 x2 x3 => Sys2Proof.Machine.execFabAmofadd x1 x2 x3 s
  | .dqQcfg x1 x2 x3 => Sys2Proof.Machine.execDqQcfg x1 x2 x3 s
  | .dqPush x1 x2 x3 => Sys2Proof.Machine.execDqPush x1 x2 x3 s
  | .dqQget x1 x2 x3 => Sys2Proof.Machine.execDqQget x1 x2 x3 s
  | .dqPrio x1 x2 => Sys2Proof.Machine.execDqPrio x1 x2 s
  | .dqQen x1 x2 => Sys2Proof.Machine.execDqQen x1 x2 s
  | .mma x1 => Sys2Proof.Machine.execMma x1 s
  | .mmak x1 => Sys2Proof.Machine.execMmak x1 s
  | .azero x1 x2 x3 => Sys2Proof.Machine.execAzero x1 x2 x3 s
  | .aread x1 x2 x3 x4 x5 => Sys2Proof.Machine.execAread x1 x2 x3 x4 x5 s
  | .areadC x1 x2 x3 x4 => Sys2Proof.Machine.execAreadC x1 x2 x3 x4 s
  | .awrite x1 x2 x3 x4 x5 => Sys2Proof.Machine.execAwrite x1 x2 x3 x4 x5 s
  | .abias x1 x2 x3 x4 x5 => Sys2Proof.Machine.execAbias x1 x2 x3 x4 x5 s
  | .astore x1 x2 x3 x4 x5 x6 => Sys2Proof.Machine.execAstore x1 x2 x3 x4 x5 x6 s
  | .astoreW x1 x2 x3 x4 => Sys2Proof.Machine.execAstoreW x1 x2 x3 x4 s
  | .vadd x1 => Sys2Proof.Machine.execVadd x1 s
  | .vsub x1 => Sys2Proof.Machine.execVsub x1 s
  | .vmul x1 => Sys2Proof.Machine.execVmul x1 s
  | .vfma x1 => Sys2Proof.Machine.execVfma x1 s
  | .vmin x1 => Sys2Proof.Machine.execVmin x1 s
  | .vmax x1 => Sys2Proof.Machine.execVmax x1 s
  | .vabs x1 => Sys2Proof.Machine.execVabs x1 s
  | .vneg x1 => Sys2Proof.Machine.execVneg x1 s
  | .vscl x1 => Sys2Proof.Machine.execVscl x1 s
  | .vadds x1 => Sys2Proof.Machine.execVadds x1 s
  | .vmov x1 => Sys2Proof.Machine.execVmov x1 s
  | .vbcast x1 => Sys2Proof.Machine.execVbcast x1 s
  | .vredSum x1 => Sys2Proof.Machine.execVredSum x1 s
  | .vredMax x1 => Sys2Proof.Machine.execVredMax x1 s
  | .vrcp x1 => Sys2Proof.Machine.execVrcp x1 s
  | .vrsq x1 => Sys2Proof.Machine.execVrsq x1 s
  | .vexp2 x1 => Sys2Proof.Machine.execVexp2 x1 s
  | .vlog2 x1 => Sys2Proof.Machine.execVlog2 x1 s
  | .vtanh x1 => Sys2Proof.Machine.execVtanh x1 s
  | .vgelu x1 => Sys2Proof.Machine.execVgelu x1 s
  | .vcvtBf x1 x2 => Sys2Proof.Machine.execVcvtBf x1 x2 s
  | .vcvtFb x1 x2 => Sys2Proof.Machine.execVcvtFb x1 x2 s
  | .vcvtFi x1 x2 => Sys2Proof.Machine.execVcvtFi x1 x2 s
  | .vcvtIf x1 x2 => Sys2Proof.Machine.execVcvtIf x1 x2 s
  | .vrope x1 => Sys2Proof.Machine.execVrope x1 s
  | .bload x1 x2 x3 x4 x5 x6 => Sys2Proof.Machine.execBload x1 x2 x3 x4 x5 x6 s
  | .bswapp x1 => Sys2Proof.Machine.execBswapp x1 s
  | .bscl x1 x2 x3 => Sys2Proof.Machine.execBscl x1 x2 x3 s
  | .qpop x1 x2 x3 => Sys2Proof.Machine.execQpop x1 x2 x3 s
  | .qrel x1 x2 => Sys2Proof.Machine.execQrel x1 x2 s
  | .qpush x1 x2 x3 x4 => Sys2Proof.Machine.execQpush x1 x2 x3 x4 s
  | .qpushE x1 x2 x3 x4 => Sys2Proof.Machine.execQpushE x1 x2 x3 x4 s
  | .sadd x1 x2 x3 x4 => Sys2Proof.Machine.execSadd x1 x2 x3 x4 s
  | .ssub x1 x2 x3 x4 => Sys2Proof.Machine.execSsub x1 x2 x3 x4 s
  | .sand x1 x2 x3 x4 => Sys2Proof.Machine.execSand x1 x2 x3 x4 s
  | .sor x1 x2 x3 x4 => Sys2Proof.Machine.execSor x1 x2 x3 x4 s
  | .sxor x1 x2 x3 x4 => Sys2Proof.Machine.execSxor x1 x2 x3 x4 s
  | .sshl x1 x2 x3 x4 => Sys2Proof.Machine.execSshl x1 x2 x3 x4 s
  | .sshr x1 x2 x3 x4 => Sys2Proof.Machine.execSshr x1 x2 x3 x4 s
  | .ssra x1 x2 x3 x4 => Sys2Proof.Machine.execSsra x1 x2 x3 x4 s
  | .smul x1 x2 x3 x4 => Sys2Proof.Machine.execSmul x1 x2 x3 x4 s
  | .smin x1 x2 x3 x4 => Sys2Proof.Machine.execSmin x1 x2 x3 x4 s
  | .smax x1 x2 x3 x4 => Sys2Proof.Machine.execSmax x1 x2 x3 x4 s
  | .sminu x1 x2 x3 x4 => Sys2Proof.Machine.execSminu x1 x2 x3 x4 s
  | .smaxu x1 x2 x3 x4 => Sys2Proof.Machine.execSmaxu x1 x2 x3 x4 s
  | .saddi x1 x2 x3 x4 => Sys2Proof.Machine.execSaddi x1 x2 x3 x4 s
  | .smovi x1 x2 x3 => Sys2Proof.Machine.execSmovi x1 x2 x3 s
  | .smovh x1 x2 x3 => Sys2Proof.Machine.execSmovh x1 x2 x3 s
  | .scmp x1 x2 x3 x4 x5 x6 => Sys2Proof.Machine.execScmp x1 x2 x3 x4 x5 x6 s
  | .scmpi x1 x2 x3 x4 x5 x6 => Sys2Proof.Machine.execScmpi x1 x2 x3 x4 x5 x6 s
  | .sfadd x1 x2 x3 x4 => Sys2Proof.Machine.execSfadd x1 x2 x3 x4 s
  | .sfsub x1 x2 x3 x4 => Sys2Proof.Machine.execSfsub x1 x2 x3 x4 s
  | .sfmul x1 x2 x3 x4 => Sys2Proof.Machine.execSfmul x1 x2 x3 x4 s
  | .sfmin x1 x2 x3 x4 => Sys2Proof.Machine.execSfmin x1 x2 x3 x4 s
  | .sfmax x1 x2 x3 x4 => Sys2Proof.Machine.execSfmax x1 x2 x3 x4 s
  | .sfrcp x1 x2 x3 => Sys2Proof.Machine.execSfrcp x1 x2 x3 s
  | .sfrsq x1 x2 x3 => Sys2Proof.Machine.execSfrsq x1 x2 x3 s
  | .sitof x1 x2 x3 => Sys2Proof.Machine.execSitof x1 x2 x3 s
  | .sftoi x1 x2 x3 => Sys2Proof.Machine.execSftoi x1 x2 x3 s
  | .sget x1 x2 x3 => Sys2Proof.Machine.execSget x1 x2 x3 s
  | .sset x1 x2 x3 => Sys2Proof.Machine.execSset x1 x2 x3 s
  | .svget x1 x2 x3 x4 => Sys2Proof.Machine.execSvget x1 x2 x3 x4 s
  | .pand x1 x2 x3 x4 => Sys2Proof.Machine.execPand x1 x2 x3 x4 s
  | .por x1 x2 x3 x4 => Sys2Proof.Machine.execPor x1 x2 x3 x4 s
  | .pxor x1 x2 x3 x4 => Sys2Proof.Machine.execPxor x1 x2 x3 x4 s
  | .pandn x1 x2 x3 x4 => Sys2Proof.Machine.execPandn x1 x2 x3 x4 s
  | .br x1 x2 => Sys2Proof.Machine.execBr x1 x2 s
  | .loop x1 x2 x3 => Sys2Proof.Machine.execLoop x1 x2 x3 s
  | .stop x1 => Sys2Proof.Machine.execStop x1 s
  | .fetchBlockRead x1 x2 => Sys2Proof.Machine.execFetchBlockRead x1 x2 s
  | .l1Fill x1 x2 => Sys2Proof.Machine.execL1Fill x1 x2 s
  | .fifoWriteback x1 => Sys2Proof.Machine.execFifoWriteback x1 s
  | .releaseComplete x1 x2 => Sys2Proof.Machine.execReleaseComplete x1 x2 s
  | .replicaInvalidationDone x1 x2 => Sys2Proof.Machine.execReplicaInvalidationDone x1 x2 s
  | .backInvalidateSnoop x1 x2 => Sys2Proof.Machine.execBackInvalidateSnoop x1 x2 s
  | .remoteReply x1 x2 x3 => Sys2Proof.Machine.execRemoteReply x1 x2 x3 s
  | .waitqTake x1 x2 => Sys2Proof.Machine.execWaitqTake x1 x2 s
  | .mrecvTake x1 x2 => Sys2Proof.Machine.execMrecvTake x1 x2 s
  | .msendAccept x1 x2 => Sys2Proof.Machine.execMsendAccept x1 x2 s
  | .controlExitComplete x1 => Sys2Proof.Machine.execControlExitComplete x1 s
  | .partEndReport x1 => Sys2Proof.Machine.execPartEndReport x1 s
  | .tileTimerExpiry x1 x2 => Sys2Proof.Machine.execTileTimerExpiry x1 x2 s
  | .tilePosting x1 x2 x3 => Sys2Proof.Machine.execTilePosting x1 x2 x3 s
  | .qpopArmedTake x1 x2 => Sys2Proof.Machine.execQpopArmedTake x1 x2 s
  | .heldInstructionResume x1 x2 => Sys2Proof.Machine.execHeldInstructionResume x1 x2 s
  | .pressStopped x1 => Sys2Proof.Machine.execPressStopped x1 s
  | .pressFaultSettled x1 => Sys2Proof.Machine.execPressFaultSettled x1 s
  | .pressEventPost x1 => Sys2Proof.Machine.execPressEventPost x1 s
  | .copyCommandStart x1 x2 => Sys2Proof.Machine.execCopyCommandStart x1 x2 s
  | .copyDelivery x1 x2 x3 => Sys2Proof.Machine.execCopyDelivery x1 x2 x3 s
  | .copyCommandComplete x1 x2 => Sys2Proof.Machine.execCopyCommandComplete x1 x2 s
  | .rblkBlockStart x1 x2 => Sys2Proof.Machine.execRblkBlockStart x1 x2 s
  | .tierMissEventPost x1 x2 => Sys2Proof.Machine.execTierMissEventPost x1 x2 s
  | .pinRequest x1 x2 => Sys2Proof.Machine.execPinRequest x1 x2 s
  | .spliceCommandExecute => Sys2Proof.Machine.execSpliceCommandExecute s
  | .spliceMovingResume => Sys2Proof.Machine.execSpliceMovingResume s
  | .fabCommandComplete x1 x2 x3 => Sys2Proof.Machine.execFabCommandComplete x1 x2 x3 s
  | .fabRemoteRequest x1 => Sys2Proof.Machine.execFabRemoteRequest x1 s
  | .aredInstanceComplete x1 x2 => Sys2Proof.Machine.execAredInstanceComplete x1 x2 s
  | .aredTimeout x1 => Sys2Proof.Machine.execAredTimeout x1 s
  | .flitCrcRetry x1 => Sys2Proof.Machine.execFlitCrcRetry x1 s
  | .linkLaneLoss x1 => Sys2Proof.Machine.execLinkLaneLoss x1 s
  | .linkDown x1 x2 => Sys2Proof.Machine.execLinkDown x1 x2 s
  | .recordAdmit x1 => Sys2Proof.Machine.execRecordAdmit x1 s
  | .taskSelect => Sys2Proof.Machine.execTaskSelect s
  | .taskBind => Sys2Proof.Machine.execTaskBind s
  | .preemption => Sys2Proof.Machine.execPreemption s
  | .taskRestore => Sys2Proof.Machine.execTaskRestore s
  | .taskEnd x1 => Sys2Proof.Machine.execTaskEnd x1 s
  | .taskFaultEnd x1 => Sys2Proof.Machine.execTaskFaultEnd x1 s
  | .runListJoin x1 => Sys2Proof.Machine.execRunListJoin x1 s
  | .powerUp => Sys2Proof.Machine.execPowerUp s
  | .owncas x1 x2 => Sys2Proof.Machine.execOwncas x1 x2 s
  | .fwgo x1 x2 => Sys2Proof.Machine.execFwgo x1 x2 s
  | .firmwareVerifyDone => Sys2Proof.Machine.execFirmwareVerifyDone s
  | .devnum x1 x2 => Sys2Proof.Machine.execDevnum x1 x2 s
  | .ptroot x1 x2 => Sys2Proof.Machine.execPtroot x1 x2 s
  | .invva x1 x2 => Sys2Proof.Machine.execInvva x1 x2 s
  | .invalidationAck => Sys2Proof.Machine.execInvalidationAck s
  | .run x1 x2 => Sys2Proof.Machine.execRun x1 x2 s
  | .rst x1 x2 => Sys2Proof.Machine.execRst x1 x2 s
  | .doorbell x1 x2 x3 => Sys2Proof.Machine.execDoorbell x1 x2 x3 s
  | .bar2Read x1 x2 => Sys2Proof.Machine.execBar2Read x1 x2 s
  | .bar2Write x1 x2 => Sys2Proof.Machine.execBar2Write x1 x2 s
  | .bar0RegisterWrite x1 x2 x3 => Sys2Proof.Machine.execBar0RegisterWrite x1 x2 x3 s
  | .ownerPathFailure x1 => Sys2Proof.Machine.execOwnerPathFailure x1 s
  | .clockThrottle x1 => Sys2Proof.Machine.execClockThrottle x1 s
  | .thermalTrip => Sys2Proof.Machine.execThermalTrip s
  | .correctedError x1 => Sys2Proof.Machine.execCorrectedError x1 s
  | .faultWindowExpiry x1 => Sys2Proof.Machine.execFaultWindowExpiry x1 s
  | .illegalInstruction x1 => Sys2Proof.Machine.execIllegalInstruction x1 s
  | .illegalBundle x1 x2 => Sys2Proof.Machine.execIllegalBundle x1 x2 s
  | .pressFetchFault x1 x2 => Sys2Proof.Machine.execPressFetchFault x1 x2 s
  | .lookupFetchFault => Sys2Proof.Machine.execLookupFetchFault s
  | .pressContextImageDone x1 => Sys2Proof.Machine.execPressContextImageDone x1 s
  | .postedStoreLanding x1 => Sys2Proof.Machine.execPostedStoreLanding x1 s
  | .linkUp x1 => Sys2Proof.Machine.execLinkUp x1 s
  | .portBDown => Sys2Proof.Machine.execPortBDown s
  | .portBUp x1 => Sys2Proof.Machine.execPortBUp x1 s
  | .uncorrectableError x1 => Sys2Proof.Machine.execUncorrectableError x1 s

end Sys2Proof.Machine
end

