-- ==== Sys2Proof/Machine/Select.lean ====
section
/-! DEFINITION. Time, and what a core selects in its turn (R137, R138, R484). -/
namespace Sys2Proof.Machine

/-! ### Time (R9, R484) -/

/-- One cycle in 1/141 ns at 940, 705 and 470 MHz (R484). -/
def cycleLength (clock : Nat) : Nat := if clock = 0 then 150 else if clock = 1 then 200 else 300

/-- Armed timers that have reached 0 by cycle `now`: the cycle in which each did, and its buffer, earliest first (R32). -/
def State.dueTimers (s : State) (now : Nat) : List (Nat × Nat × Nat) :=
  (s.clusters.flatMap (fun c => c.2.bufs.filterMap (fun b =>
    if b.2.timed && decide (b.2.state = .open_) && decide (b.2.due ≤ now) then some (b.2.due, c.1, b.1) else none))).insertionSort
      (fun x y => x.1 ≤ y.1)

/-- Timers expire in the cycles in which they reach 0, so that a seal in a later cycle finds them expired (R32). -/
def State.timersDue (s : State) : State :=
  (s.dueTimers s.cycle).foldl (fun t e => { { t with cycle := e.1 }.expire e.2.1 e.2.2 with cycle := s.cycle }) s

/-- `n` cycles pass; dirty lines whose time has run out go to their homes (R60), and tile timers expire (R32). A device that has
tripped has stopped every clock (R484). -/
def State.pass (s : State) (n : Nat) : State :=
  if s.mgmt.tripped then s
  else { s with cycle := s.cycle + n, time141 := s.time141 + n * cycleLength s.mgmt.clock }.agedOut.timersDue

/-- Time moves on to cycle `c` if that lies ahead. -/
def State.until_ (s : State) (c : Nat) : State := s.pass (c - s.cycle)

/-! ### Selection (R137, R138) -/

/-- Slots of a unit (R5, R377). -/
def slotCount (u : Nat) : Nat := if isLookup u then 8 else 16

/-- The slot can be selected once its time has come: it runs, waits for nothing but the end of a creation, and its fetch buffer
holds the word at its PC; or its PC is one that a lookup slot cannot fetch (R138, R378). -/
def canIssue (u : Nat) (x : Slot) : Bool :=
  ((decide (x.st = .run) && decide (x.wait = .none)) || decide (x.wait = .creating))
    && (!x.fetch.isEmpty || (isLookup u && decide (0x8000 ≤ x.active.pc.toNat)))

/-- The cycle in which the word at PC has reached the buffer (R150). -/
def Slot.wordAt (x : Slot) : Nat :=
  x.landing.foldl (fun acc e => if e.1 ≤ x.active.pc.toNat then max acc e.2 else acc) 0

/-- The first cycle in which the slot is ready (R138, R139, R150). -/
def Slot.ready (x : Slot) : Nat := max x.readyAt x.wordAt

/-- The core may select the slot: one whose slots stop lets none begin an instruction (R176, R177). -/
def Core.allows (c : Core) (x : Slot) : Bool := !c.stopping || x.midway

/-- The slots in the order in which the selector looks at them (R137, R378). -/
def scanOrder (u next : Nat) : List Nat := (List.range (slotCount u)).map (fun i => (next + i) % slotCount u)

/-- The earliest cycle in which the unit can select a slot. -/
def State.nextIssue (s : State) (u : Nat) : Option Nat :=
  (s.core u).slots.foldl (fun (acc : Option Nat) e =>
    if canIssue u e.2 && (s.core u).allows e.2 then
      let r := max e.2.ready (s.core u).issueAt
      match acc with
      | some b => some (min b r)
      | none => some r
    else acc) none

/-- The slot that the unit selects in this cycle (R137). -/
def State.selected (s : State) (u : Nat) : Option Nat :=
  (scanOrder u (s.core u).next).find? (fun i =>
    canIssue u (s.slotOf u i) && (s.core u).allows (s.slotOf u i) && decide ((s.slotOf u i).ready ≤ s.cycle))

/-- The state in which slot `i` of unit `u` runs its instruction; the selector's pointer moves (R137). -/
def State.selecting (s : State) (u i : Nat) : State :=
  { s.updCore u (fun c => { c with
      next := (i + 1) % slotCount u, issueAt := s.cycle + 1, slots := mupd {} c.slots i Slot.created }) with cur := u, slot := i }

/-- An instruction opens a tile: TOPEN, or CPY.TILE with open (R246, R279). -/
def opens : Instr → Bool
  | .topen .. => true
  | .cpyTile _ _ _ _ o _ => o
  | _ => false

/-- The cycle in which a strand core would open a tile next: the first in which it can select a slot, where that slot's word opens
one. -/
noncomputable def State.topenAt (s : State) (u : Nat) : Option Nat :=
  match s.nextIssue u with
  | none => none
  | some c => match (s.until_ c).selected u with
    | none => none
    | some i => match decode ((s.slotOf u i).fetch.headD 0) with
      | .ok i => if opens i then some (max c s.cycle) else none
      | .error _ => none

/-- The lowest core of the cluster, below `u`, whose opening of a tile meets that of `u` in a cycle: it goes first (R5, R246). -/
noncomputable def State.topenFirst (s : State) (u : Nat) : Option Nat :=
  if isLookup u || !s.alive then none
  else match s.topenAt u with
  | none => none
  | some c => ((List.range (u % 16)).map (fun i => u / 16 * 16 + i)).find? (fun v => match s.topenAt v with
    | some k => decide (k ≤ c)
    | none => false)

/-- What a unit runs in its turn: the instruction and the state it runs in; none when no slot can be selected. Time moves on to
the first cycle in which one can. -/
noncomputable def State.unitTurn (s : State) (u : Nat) : Option (Instr × State) :=
  if !s.alive then none
  else match s.nextIssue u with
  | none => none
  | some c =>
    let t := s.until_ c
    match t.selected u with
    | none => none
    | some i =>
      let t1 := t.selecting u i
      if isLookup u && decide (0x8000 ≤ t1.pc.toNat) then some (.lookupFetchFault, t1)
      else match decode t1.word with
      | .ok x => some (x, t1)
      | .error _ => some (.illegalInstruction t1.word, t1)

end Sys2Proof.Machine
end

