-- ==== Sys2Proof/Machine/PressTurn.lean ====
section
/-! DEFINITION. What a press does in its turn: the fetch and decode of a group, its check as a whole, the waits behind held
instructions, and the passing of a beat (R302, R304, R307, R310, R313 to R315, R321, R332). -/
namespace Sys2Proof.Machine

/-! ### Fetch and decode of a group -/

/-- Words of instruction memory from an offset. -/
def State.imemWords (s : State) (p off n : Nat) : List W32 :=
  (List.range n).map (fun i => w32 (s.numAt (imemBase p + off + 4 * i) 4))

/-- What the words of a group show so far: slots, banks and lane groups used. -/
structure Seen where
  slots : List Nat := []
  banks : List Nat := []
  lanes : Nat := 0

/-- Banks that an instruction names. -/
def bankOf : Instr → Option Nat
  | .mma x | .mmak x => some x.bank.toNat
  | .azero _ b _ | .aread _ b _ _ _ | .areadC _ b _ _ | .awrite _ b _ _ _ | .abias _ b _ _ _ | .astore _ b _ _ _ _
  | .astoreW _ b _ _ => some b.toNat
  | _ => none

/-- The tile register that an instruction names. -/
def tileOf : Instr → Option Nat
  | .mma x | .mmak x => some x.yt.toNat
  | .astore _ _ y _ _ _ | .astoreW _ _ y _ | .bload _ y _ _ _ _ | .qpop _ y _ | .qrel _ y | .qpush _ y _ _ | .qpushE _ y _ _ =>
    some y.toNat
  | _ => none

/-- The planes that an instruction names; a matrix product names the active plane `act`, BSWAPP both (log entry 26). -/
def planesOf (act : Nat) : Instr → List Nat
  | .mma _ | .mmak _ => [act]
  | .bload _ _ p _ _ _ | .bscl _ p _ => [p.toNat]
  | .bswapp _ => [0, 1]
  | _ => []

def slotCode (i : Instr) : Nat := match pressSlotOf i with | some e => e.code | none => 8
def lanesOf (i : Instr) : Nat := match vFields i with | some x => x.wid.groups | none => 0

/-- One more instruction of the group; ARG of the fault for two in one slot, two of one bank, or too many lane groups (R299, R300,
R304, R322). -/
def Seen.with (g : Seen) (i : Instr) : Except Nat Seen :=
  let bank := (bankOf i).toList
  match bank.find? g.banks.contains with
  | some b => .error b
  | none =>
    if g.slots.contains (slotCode i) || decide (4 < g.lanes + lanesOf i) then .error 0
    else .ok { slots := slotCode i :: g.slots, banks := bank ++ g.banks, lanes := g.lanes + lanesOf i }

def Seen.withAll (g : Seen) : List Instr → Except Nat Seen
  | [] => .ok g
  | i :: is => match g.with i with
    | .error a => .error a
    | .ok g' => g'.withAll is

/-- A group as it was decoded: its instructions, the offset after it, the ordinal after it, and its first bundle with a word in
error. -/
structure GroupRead where
  instrs  : List Issue
  pc      : Nat
  bundles : Nat
  bad     : Option Nat := none

/-- A fault that the fetch or decode of a group finds (R322). -/
def decodeFault (code arg fpc : Nat) : PressFaultRec := ⟨code, 0, false, 0, false, arg, fpc⟩

/-- Offsets and lengths in words of the bundles of a group from offset `pc` on, as their headers give them; the offset at which the
group would pass 0xFFFF. A group whose header is in error ends there, since its extent is not known (log entry 26). After a group that ends with the
memory the offset is 0x10000, and the next group a fetch fault (R294, R321; log entry 102). -/
def State.groupExtent (s : State) (p : Nat) : Nat → Nat → Except Nat (List (Nat × Nat))
  | 0, pc => .error pc
  | fuel + 1, pc =>
    if 0x10000 ≤ pc then .error pc
    else
      let h := w32 (s.numAt (imemBase p + pc) 4)
      let n := bundleWords h
      if s.bad (imemBase p + pc) 4 then .ok [(pc, 1)]
      else if 0x10000 < pc + 4 * n then .error pc
      else if h.getLsbD 23 then .ok [(pc, n)]
      else match s.groupExtent p fuel (pc + 4 * n) with
        | .error a => .error a
        | .ok l => .ok ((pc, n) :: l)

/-- The bundles of a group decoded in turn, ordinal `j` first; the first that is illegal is the fault. A bundle with a word in error
is not decoded. -/
noncomputable def State.readBundles (s : State) (p : Nat) : List (Nat × Nat) → Nat → Seen → Except PressFaultRec GroupRead
  | [], j, _ => .ok ⟨[], 0, j, none⟩
  | (pc, n) :: rest, j, g =>
    if s.bad (imemBase p + pc) (4 * n) then match s.readBundles p rest (j + 1) g with
      | .error f => .error f
      | .ok r => .ok { r with bad := some pc, pc := if rest.isEmpty then pc + 4 * n else r.pc }
    else match decodeBundle (s.imemWords p pc n) with
    | none => .error (decodeFault 2 0 pc)
    | some (stop, is, _) => match g.withAll is with
      | .error a => .error (decodeFault 2 a pc)
      | .ok g' =>
        if !stop && g'.slots.contains 7 then .error (decodeFault 2 0 pc)
        else match s.readBundles p rest (j + 1) g' with
          | .error f => .error f
          | .ok r => .ok { r with
              instrs := is.map (fun i => (⟨i, pc, j⟩ : Issue)) ++ r.instrs, pc := if rest.isEmpty then pc + 4 * n else r.pc }

/-- The group at offset `pc`, ordinal `j` first: the fetch fault goes before an illegal bundle (R321, R332). -/
noncomputable def State.readGroup (s : State) (p pc j : Nat) : Except PressFaultRec GroupRead :=
  if pc % 4 ≠ 0 then .error (decodeFault 1 0 pc)
  else match s.groupExtent p 0x4001 pc with
    | .error a => .error (decodeFault 1 0 a)
    | .ok l => s.readBundles p l j {}

/-- The group in the order in which its instructions are performed: the S slot first, since it has no result that the others see in
their beat, then the order of R334. -/
def issueOrder (is : List Issue) : List Issue :=
  [6, 0, 1, 2, 3, 4, 5, 7].flatMap (fun k => is.filter (fun i => decide (slotCode i.instr = k)))

/-! ### Waits behind held instructions (R310) -/

/-- The planes that a held instruction names. -/
def heldPlanes (act : Nat) : HeldOp → List Nat
  | .mma _ | .mmak _ => [act]
  | .bload _ _ p _ _ _ => [p.toNat]
  | _ => []

/-- An instruction and a held one share a slot, a bank, a tile register or a plane. -/
def clashes (p act : Nat) (i : Instr) (h : HeldOp) : Bool :=
  let e := heldSpec p h
  decide (slotCode i = e.slot.code) || ((bankOf i).toList.any e.bank.toList.contains)
    || ((tileOf i).toList.any (e.tile.map (·.1)).toList.contains) || ((planesOf act i).any (heldPlanes act h).contains)

/-- Ordinal of the oldest bundle that contains a held instruction. -/
def Press.oldestHeld (x : Press) : Option Nat :=
  x.held.foldl (fun acc e => match acc with | none => some e.2.bundle | some b => some (min b e.2.bundle)) none

/-- The group has to wait (R310). -/
def Press.blocks (x : Press) (p : Nat) (g : GroupRead) : Bool :=
  match x.oldestHeld with
  | none => false
  | some b => decide (b + 5 < g.bundles) || g.instrs.any (fun i => x.held.any (fun h => clashes p x.activeP i.instr h.2.instr))

/-! ### The group as a whole (R321, R322) -/

/-- The state in which the next instruction of the group is performed. -/
def State.withIssue (s : State) (p : Nat) (i : Issue) : State :=
  { s.updPress p (fun x => { x with atFpc := i.fpc, atBundle := i.bundle }) with press := p }

/-- The record of the fault that an instruction would raise, and the state after it; `ex` performs an instruction. -/
def State.tryIssue (ex : Instr → State → Out) (s : State) (p : Nat) (i : Issue) : Option PressFaultRec × State :=
  match ex i.instr (s.withIssue p i) with
  | .next t =>
    let x := t.pressAt p
    if x.faulted then
      (some ⟨nf x.fcause.toNat 0 8, nf x.fcause.toNat 8 3, false, 0, false, nf x.fcause.toNat 16 16, x.fpc.toNat⟩, s)
    else (none, t)
  | _ => (none, s)

/-- The fault of lowest code that the group raises, with its instruction: the group is tried on a copy of the state. -/
def State.groupFault (ex : Instr → State → Out) (s : State) (p : Nat) : List Issue → Option (PressFaultRec × Issue)
  | [] => none
  | i :: is =>
    let r := s.tryIssue ex p i
    match r.1, r.2.groupFault ex p is with
    | none, m => m
    | some f, none => some (f, i)
    | some f, some (f', i') => if f.code ≤ f'.code then some (f, i) else some (f', i')

/-! ### Beats -/

/-- A QPUSH whose tile is ready begins to wait for its queue (R311). -/
def State.startPushWaits (s : State) (p : Nat) : State :=
  let x := s.pressAt p
  match x.held.find? (fun h => h.1 == 5) with
  | none => s
  | some (_, h) =>
    let sp := heldSpec p h.instr
    if sp.push.isSome && decide (h.ticket = 0) && !x.tileWaits x.beat sp.tile && s.pushWaits p 0 sp.push then
      s.updPress p (fun y => { y with held := mins (merase y.held 5) 5 { h with ticket := waitKey x.cycle (1 + p % 2) } })
    else s

/-- A beat passes: device time moves on, and what is due becomes visible. -/
def State.nextBeat (s : State) (p : Nat) : State :=
  let x := s.pressAt p
  let t := (s.until_ (x.cycle + 1)).setPress p { x with beat := x.beat + 1, cycle := x.cycle + 1, cyc := x.cyc + 1 }
  (t.settleAt p (x.beat + 1)).startPushWaits p

/-- Held instructions that can resume now, in the order M, A, C, Q. -/
def State.resumable (s : State) (p : Nat) : Option PressSlot :=
  let x := s.pressAt p
  [PressSlot.m, .a, .c, .q].find? (fun e => match x.held.find? (fun h => h.1 == e.code) with
    | none => false
    | some (_, h) => s.canResume p h (heldSpec p h.instr))

/-- A group issues: PC, the next beat, and its bundles counted; its first instruction is to be performed. -/
def State.startGroup (s : State) (p : Nat) (g : GroupRead) : Option (Instr × State) :=
  match issueOrder g.instrs with
  | [] => none
  | i :: rest =>
    some (i.instr, (s.updPress p (fun x =>
      { x.settleNfmt with issue := rest, pc := g.pc, nextAt := x.beat + 1, bundles := g.bundles })).withIssue p i)

/-- What a press performs in its turn, and the state it performs it in; without an instruction, the state after the turn. -/
noncomputable def State.pressTurn (ex : Instr → State → Out) (s : State) (p : Nat) : Option Instr × State :=
  let x := s.pressAt p
  if !s.alive || !(decide (x.st = .run) || decide (x.st = .stopping)) then (none, s)
  else match x.issue with
  | i :: rest => (some i.instr, (s.updPress p (fun y => { y with issue := rest })).withIssue p i)
  | [] =>
    if x.faulted then (if x.drained then (some (.pressFaultSettled p), s) else (none, s.nextBeat p))
    else if x.st = .stopping then (if x.drained then (some (.pressStopped p), s) else (none, s.nextBeat p))
    else match s.resumable p with
    | some e => (some (.heldInstructionResume p e), s)
    | none =>
      if x.beat < x.nextAt then (none, s.nextBeat p)
      else match s.readGroup p x.pc x.bundles with
      | .error f => if f.code = 1 then (some (.pressFetchFault p f.fpc), s) else (some (.illegalBundle p f), s)
      | .ok g => match g.bad with
      | some fpc => match s.groupFault ex p (issueOrder g.instrs) with
        | some (f, i) => (some i.instr, (s.updPress p (fun y => { y with found := some f })).withIssue p i)
        | none => (some (.illegalBundle p (decodeFault 7 0 fpc)), s)
      | none =>
        if x.blocks p g then (none, s.nextBeat p)
        else match s.groupFault ex p (issueOrder g.instrs) with
        | some (f, i) => (some i.instr, (s.updPress p (fun y => { y with found := some f })).withIssue p i)
        | none => match s.startGroup p g with
          | none => (none, s.nextBeat p)
          | some (i, t) => (some i, t)

end Sys2Proof.Machine
end

