-- ==== Sys2Proof/Machine/Auto.lean ====
section
/-! DEFINITION. One turn of the machine, and the turns that the model's own order looks at when the agenda is empty: events inside
the device that can take place, then cores and presses, then time alone (log entry 24). -/
namespace Sys2Proof.Machine

/-- What a unit runs in its turn is performed. -/
noncomputable def runUnit (u : Nat) (s : State) : Host.Outcome State Fault Refusal :=
  match s.unitTurn u with
  | some (i, s') => exec i s'
  | none => .next s

/-- One turn. A device that has tripped answers to nothing but a power cycle (R484). A core whose TOPEN meets that of a lower core
of its cluster lets that core go first, and takes its turn next (R246). -/
noncomputable def runTurn (t : Turn) (s : State) : Host.Outcome State Fault Refusal :=
  match t with
  | .unit u => match s.topenFirst u with
    | some v => runUnit v { s with agenda := .unit u :: s.agenda }
    | none => runUnit u s
  | .press p => match s.pressTurn exec p with
    | (some i, s') => exec i s'
    | (none, s') => .next s'
  | .event i => if s.mgmt.tripped && decide (i ≠ .powerUp) then .next s else exec i s
  | .tick n => .next (s.pass n)
  | .access m a => if s.mgmt.tripped then .next s else s.access m a
  | .poolCleared g => .next (if s.isPool (8 * g) then { s with poison := s.poison.filter (fun x => x != g) } else s)

/-- Events of the slots of a core. -/
noncomputable def slotEvents (u : Nat) (e : Nat × Slot) : List Instr :=
  (if e.2.fetch.isEmpty && decide (e.2.st = .run) then [.fetchBlockRead u e.1] else [])
    ++ match e.2.wait with
      | .load _ pa _ _ => [.l1Fill u (pa / 64), .l1Fill u (pa / 64 + 1), .fifoWriteback u]
      | .way _ => [.fifoWriteback u]
      | .release => [.releaseComplete u e.1, .fifoWriteback u]
      | .replica _ => [.replicaInvalidationDone u e.1]
      | .waitq .. => [.waitqTake u e.1]
      | .mrecv .. => [.mrecvTake u e.1]
      | .msend .. => [.msendAccept u e.1]
      | .exit => [.controlExitComplete u]
      | _ => []

/-- Events of a core: its slots, lines that stores have requested, prefetches, the end of its part, its fabric commands on this
device. -/
noncomputable def coreEvents (e : Nat × Core) : List Instr :=
  e.2.slots.flatMap (slotEvents e.1) ++ (e.2.l1.filter (fun l => l.2.filling)).map (fun l => .l1Fill e.1 l.1)
    ++ e.2.pref.map (fun x => .l1Fill e.1 (x / 2))
    ++ (if e.2.ended then [.partEndReport e.1] else [])
    ++ e.2.fab.filterMap (fun c => if c.2.queue.isEmpty then none else some (.fabCommandComplete e.1 c.1 ⟨.linkdown, 0, [], 0, 0⟩))

/-- Events of a cluster: its copy unit and its tiles. -/
noncomputable def clusterEvents (e : Nat × Cluster) : List Instr :=
  e.2.chans.flatMap (fun c => if c.2.queue.isEmpty then [] else
      [.copyCommandStart e.1 c.1, .pinRequest e.1 c.1, .rblkBlockStart e.1 c.1, .copyDelivery e.1 c.1 0, .tierMissEventPost e.1 c.1,
       .copyCommandComplete e.1 c.1])
    ++ e.2.bufs.flatMap (fun b => (if b.2.timed && decide (b.2.state = .open_) then [.tileTimerExpiry e.1 b.1] else [])
      ++ if b.2.state = .sealed then [.tilePosting e.1 b.2.mu.toNat b.2.queue.toNat] else [])

/-- Events of a press. -/
noncomputable def pressEvents (e : Nat × Press) : List Instr :=
  (List.range 4).map (fun q => .qpopArmedTake e.1 q)
    ++ e.2.held.filterMap (fun h => match h.1 with
      | 0 => some (.heldInstructionResume e.1 .m) | 1 => some (.heldInstructionResume e.1 .a)
      | 4 => some (.heldInstructionResume e.1 .c) | 5 => some (.heldInstructionResume e.1 .q) | _ => none)
    ++ [.pressStopped e.1, .pressFaultSettled e.1, .pressEventPost e.1]
    ++ (if e.2.busy.isSome then [.pressContextImageDone e.1] else [])

/-- Events of the Splice engine, the distributor and the management controller. -/
noncomputable def deviceEvents (s : State) : List Instr :=
  (if s.splice.queue.isEmpty then [] else [.spliceCommandExecute, .spliceMovingResume])
    ++ s.dist.queues.map (fun e => .recordAdmit e.1)
    ++ s.dist.ready.filterMap (fun n => (s.dist.parked.find? (fun e => e.1 == n)).map (fun e => .runListJoin (refCore e.2.rec_.wcell)))
    ++ s.dist.bound.map (fun t => .taskEnd t.key) ++ s.dist.halted.map (fun e => .taskFaultEnd e.1)
    ++ [.taskBind, .taskRestore, .preemption, .taskSelect, .firmwareVerifyDone, .invalidationAck]

/-- The unit that can select a slot earliest, and the press that is furthest behind. -/
noncomputable def runners (s : State) : List Turn :=
  let us := s.cores.filterMap (fun e => (s.nextIssue e.1).map (fun c => (c, Turn.unit e.1)))
  let ps := s.presses.filterMap (fun e => if e.2.running then some (e.2.cycle, Turn.press e.1) else none)
  ((us ++ ps).mergeSort (fun a b => decide (a.1 ≤ b.1))).map (·.2)

/-- Lines that wait in a FIFO go to their homes. -/
noncomputable def drains (s : State) : List Turn :=
  s.cores.filterMap (fun e => if e.2.fifo.any FifoEntry.isLine then some (.event (.fifoWriteback e.1)) else none)

/-- The first posted store that stays on this device lands; that one has landed elsewhere is for the other device to say. -/
noncomputable def landings (s : State) : List Instr :=
  ((findIdx (fun (p : Posted) => match p.dest with | .device _ _ => false | _ => true) s.posted).map Instr.postedStoreLanding).toList

/-- Every turn that the model's own order looks at, first to last. -/
noncomputable def autoTurns (s : State) : List Turn :=
  (s.cores.flatMap coreEvents ++ s.clusters.flatMap clusterEvents ++ s.presses.flatMap pressEvents ++ deviceEvents s
      ++ landings s).map Turn.event
    ++ runners s ++ drains s

/-- The turn changes something besides the model's note of who runs. -/
def progress (s : State) : Host.Outcome State Fault Refusal → Bool
  | .next t => decide ({ t with cur := s.cur, slot := s.slot, press := s.press } ≠ s)
  | _ => true

/-- The turn that the model's own order gives: the first that changes something, or one cycle. -/
noncomputable def autoTurn (s : State) : Turn := ((autoTurns s).find? (fun t => progress s (runTurn t s))).getD (.tick 1)

/-! ### Turns that the agenda holds -/

/-- The code of the master whose OWNCAS a turn is. -/
def claimant : Turn → Option Nat
  | .event (.owncas m _) => some m.code
  | .event (.bar0RegisterWrite m off _) => if off = 8 then some m.code else none
  | _ => none

/-- Among OWNCAS writes that stand together at the head of the agenda, which arrive in one cycle, the one of the least master code
goes first (R488; log entry 91). -/
def leastClaim (t : Turn) : List Turn → Turn × List Turn
  | [] => (t, [])
  | u :: rest => match claimant t, claimant u with
    | some a, some b =>
      if b < a then let r := leastClaim u rest
        (r.1, t :: r.2)
      else let r := leastClaim t rest
        (r.1, u :: r.2)
    | _, _ => (t, u :: rest)

/-- The agenda in the order in which its turns are taken. -/
def inOrder : List Turn → List Turn
  | [] => []
  | t :: rest => let r := leastClaim t rest
    r.1 :: r.2

end Sys2Proof.Machine
end

