-- ==== Sys2Proof/Machine/Step.lean ====
section
/-! DEFINITION. One step of the machine: the turn at the head of the agenda, or the one that the model's own order gives. -/
namespace Sys2Proof.Machine

/-- One step. -/
noncomputable def step (s : State) : Host.Outcome State Fault Refusal :=
  match inOrder s.agenda with
  | t :: rest => runTurn t { s with agenda := rest }
  | [] => runTurn (autoTurn s) s

/-- A word that only a lookup slot executes: the lookup group of major 0x3A (R381). -/
def lookupWord (w : Nat) : Bool := decide (w / 2 ^ 26 % 64 = 0x3A) && decide (16 ≤ w % 64)

/-- The state with an instruction placed where the next step fetches it: the engines are out of reset, slot 0 of core 0 (of
lookup core 0 for the lookup group) runs, local memory holds the word at its PC and so does its fetch buffer, and its turn comes
next (log entry 24). -/
def State.withFetchWord (s : State) (_nbits w : Nat) : State :=
  let u := if lookupWord w then 1536 else 0
  let s1 := { s with mgmt := { s.mgmt with run := true, tripped := false }, agenda := [.unit u] }
  let x := s1.slotOf u 0
  let s2 := s1.updCore u (fun c => { c with
    next := 0, issueAt := s.cycle, stopping := false, look := { c.look with run := true },
    slots := mset {} c.slots 0 { x with st := .run, wait := .none, readyAt := s.cycle, latched := none, fetch := [w32 w], landing := [] } })
  s2.putNum (ownBase u + x.active.pc.toNat) 4 w

end Sys2Proof.Machine
end

