-- ==== Sys2Proof/Safety.lean ====
section
/-! DEFINITION. What a safe run is: memory keeps its canonical form, the registers that the manual hard-wires or bounds keep their
form, and no step refuses. -/
namespace Sys2Proof.Machine

/-- The canonical form of memory: addresses strictly rising, no listed byte equal to the 0 of an unlisted one. -/
abbrev Memory.wf (m : List Host.Cell) : Prop := mwf 0 m = true

/-- One byte of the machine's memory (the keys stand in Machine/Ops.lean). -/
def State.byteAt (s : State) (a : Nat) : Byte := mget 0 s.mem a

/-- A step that does not stop with a refusal. -/
def NotRefused (o : Host.Outcome State Fault Refusal) : Prop := ∀ r, o ≠ .refused r

/-! ### How an instruction of a slot completes

`u` is the machine as the instruction leaves it outside the running slot; an instruction that changes nothing there has `u = s`. -/

/-- The running slot of `u` after its instruction: PC + 4, ready `lat` cycles after selection (R139), its bank changed by `f`. -/
def State.slotAfter (u : State) (f : Bank → Bank) (lat : Nat) : Slot :=
  { u.me.updActive (fun b => { f b with pc := (f b).pc + 4 }) with
    fetch := u.me.fetch.tail, readyAt := u.cycle + lat, drained := false, clearedLine := none, latched := none, wait := .none, st := .run }

/-- From `u` the instruction completes into `t`: gd takes `v` (g0 takes nothing and reads 0), every other register keeps its value,
`fl` is ORed into the flags, the PC advances, and nothing outside the slot differs from `u`. -/
structure Retires (u : State) (d : GReg) (v : W64) (fl : W32) (lat : Nat) (t : State) : Prop where
  rest : t = u.setSlot u.cur u.slot t.me
  memory : ∀ a, t.byteAt a = u.byteAt a
  slot : t.me = u.slotAfter (fun b => { b with g := t.bk.g, fps := b.fps ||| fl }) lat
  value : t.readG d = if d = 0 then 0 else v
  others : ∀ r, r ≠ d → t.readG r = u.readG r

/-- The instruction completes and gives gd a value; `u` is the machine that it leaves outside the running slot. -/
def Gives (i : Instr) (s u : State) (d : GReg) (v : W64) (fl : W32) (lat : Nat) : Prop :=
  ∃ t, exec i s = .next t ∧ Retires u d v fl lat t

/-- The same of a command that keeps its slot in WAIT for its whole latency (R275, R427). -/
def GivesWaiting (i : Instr) (s u : State) (d : GReg) (v : W64) (lat : Nat) : Prop :=
  ∃ t, Retires u d v 0 lat t ∧ exec i s = .next (t.setSlot t.cur t.slot { t.me with st := .wait, wait := .creating })

/-- The instruction completes and writes no g register. -/
def Completes (i : Instr) (s u : State) (lat : Nat) : Prop := Gives i s u 0 0 0 lat

/-- The instruction completes and sets condition bit `k`; no g register and no other condition bit changes. -/
def SetsK (i : Instr) (s : State) (k : KReg) (v : Bool) (fl : W32) (lat : Nat) : Prop :=
  ∃ t, exec i s = .next t ∧ t = s.setSlot s.cur s.slot t.me ∧ (∀ a, t.byteAt a = s.byteAt a)
    ∧ t.me = s.slotAfter (fun b => { b with k := t.bk.k, fps := b.fps ||| fl }) lat
    ∧ t.readK k = v ∧ ∀ j, j ≠ k → t.readK j = s.readK j

/-- The instruction completes by a transfer of control to `pc`: the fetch buffer is empty (R152, R219) and `f` is what else it does
to the bank. -/
def JumpsTo (i : Instr) (s u : State) (pc : BitVec 16) : Prop :=
  ∃ t, exec i s = .next t ∧ t = u.setSlot u.cur u.slot t.me ∧ (∀ a, t.byteAt a = u.byteAt a)
    ∧ t.me = { u.me.updActive (fun b => { b with pc := pc }) with
        fetch := [], readyAt := u.cycle + 5, drained := false, clearedLine := none, latched := none, wait := .none, st := .run }

/-- The instruction raises a trap outside a handler: the banked trap registers take what R169 says, the PC is EVEC, and nothing
outside the slot differs from `u`. -/
def TrapsTo (i : Instr) (s u : State) (code : Nat) (eval : W64) (reg : Nat) (wr : Bool) : Prop :=
  ∃ t, exec i s = .next t ∧ t = u.setSlot u.cur u.slot t.me ∧ (∀ a, t.byteAt a = u.byteAt a)
    ∧ t.me = { u.me.updActive (fun b => { b with
          ecause := w32 (code + reg % 32 * 256 + b2n wr * 0x2000), eval := eval, epc := b.pc.zeroExtend 32,
          estat := if b.estat.getLsbD 0 then 7 else 5, pc := b.evec.truncate 16 }) with
        fetch := [], readyAt := u.cycle + 2, drained := false, clearedLine := none, latched := none, wait := .none, st := .run }

/-- A release at `sc` finds nothing to wait for: no dropped store to report at DOMAIN scope, and either the release of this
instruction is already complete, or nothing of the slot is outstanding, or the scope is no wider than CORE (R62, R404). -/
def Released (s : State) (sc : Scope) : Prop :=
  (sc = .domain → s.me.linkDrop = none) ∧ (s.me.drained = true ∨ s.clean = true ∨ wideScope (scopeOn s.cur sc) = false)

/-! ### How a waiting instruction ends (R142) -/

/-- The slot after its waiting instruction has ended with `v` in gd (g0 takes nothing); it is ready again in cycle `now`. -/
def Slot.ends (x : Slot) (d : GReg) (v : W64) (now : Nat) : Slot :=
  { x.updActive (fun b => { b.writeG d v with pc := b.pc + 4 }) with
    fetch := x.fetch.tail, readyAt := now, drained := false, clearedLine := none, latched := none, wait := .none, st := .run }

/-- The event ends the instruction of slot `i` of unit `u`, `t` being the machine as the event leaves it outside that slot. -/
def Wakes (e : Instr) (s t : State) (u i : Nat) (d : GReg) (v : W64) (lat : Nat) : Prop :=
  exec e s = .next { t.setSlot u i ((t.slotOf u i).ends d v (s.cycle + lat)) with cur := u, slot := i }

end Sys2Proof.Machine
end

