-- ==== Sys2Proof/Certificates/Slice0/Obligations.lean ====
section
/-! DEFINITION. The statements for the provers: one definition per obligation (OBLIGATIONS.json). -/

open Sys2Proof Sys2Proof.Machine

/-- Away from the end of local memory each instruction of R191 completes with the value of R191 in gd (64-bit wrapping
arithmetic; g0 takes nothing), latency 4 (6 for the products), no flag, no other register, and no change outside the
slot or in any byte of memory. (R191, R139, R185) -/
def Obligations.IntegerRegister : Prop :=
  ∀ (s : State) (d a b : GReg) (k : KReg), s.pc ≠ 0xFFFC →
    Gives (.add d a b) s s d (s.readG a + s.readG b) 0 4
    ∧ Gives (.sub d a b) s s d (s.readG a - s.readG b) 0 4
    ∧ Gives (.and d a b) s s d (s.readG a &&& s.readG b) 0 4
    ∧ Gives (.or d a b) s s d (s.readG a ||| s.readG b) 0 4
    ∧ Gives (.xor d a b) s s d (s.readG a ^^^ s.readG b) 0 4
    ∧ Gives (.andn d a b) s s d (s.readG a &&& ~~~(s.readG b)) 0 4
    ∧ Gives (.orn d a b) s s d (s.readG a ||| ~~~(s.readG b)) 0 4
    ∧ Gives (.xnor d a b) s s d (~~~(s.readG a ^^^ s.readG b)) 0 4
    ∧ Gives (.sll d a b) s s d (s.readG a <<< ((s.readG b).toNat % 64)) 0 4
    ∧ Gives (.srl d a b) s s d (s.readG a >>> ((s.readG b).toNat % 64)) 0 4
    ∧ Gives (.sra d a b) s s d ((s.readG a).sshiftRight ((s.readG b).toNat % 64)) 0 4
    ∧ Gives (.rol d a b) s s d ((s.readG a).rotateLeft ((s.readG b).toNat % 64)) 0 4
    ∧ Gives (.ror d a b) s s d ((s.readG a).rotateRight ((s.readG b).toNat % 64)) 0 4
    ∧ Gives (.min d a b) s s d (if (s.readG a).toInt ≤ (s.readG b).toInt then s.readG a else s.readG b) 0 4
    ∧ Gives (.max d a b) s s d (if (s.readG a).toInt ≤ (s.readG b).toInt then s.readG b else s.readG a) 0 4
    ∧ Gives (.minu d a b) s s d (if (s.readG a).toNat ≤ (s.readG b).toNat then s.readG a else s.readG b) 0 4
    ∧ Gives (.maxu d a b) s s d (if (s.readG a).toNat ≤ (s.readG b).toNat then s.readG b else s.readG a) 0 4
    ∧ Gives (.addw d a b) s s d (((s.readG a + s.readG b).truncate 32).signExtend 64) 0 4
    ∧ Gives (.subw d a b) s s d (((s.readG a - s.readG b).truncate 32).signExtend 64) 0 4
    ∧ Gives (.sllw d a b) s s d ((((s.readG a).truncate 32 : W32) <<< ((s.readG b).toNat % 32)).signExtend 64) 0 4
    ∧ Gives (.srlw d a b) s s d ((((s.readG a).truncate 32 : W32) >>> ((s.readG b).toNat % 32)).signExtend 64) 0 4
    ∧ Gives (.sraw d a b) s s d ((((s.readG a).truncate 32 : W32).sshiftRight ((s.readG b).toNat % 32)).signExtend 64) 0 4
    ∧ Gives (.mul d a b) s s d (s.readG a * s.readG b) 0 6
    ∧ Gives (.mulh d a b) s s d (BitVec.ofInt 64 ((s.readG a).toInt * (s.readG b).toInt / 2 ^ 64)) 0 6
    ∧ Gives (.mulhu d a b) s s d (BitVec.ofNat 64 ((s.readG a).toNat * (s.readG b).toNat / 2 ^ 64)) 0 6
    ∧ Gives (.mulw d a b) s s d (((s.readG a * s.readG b).truncate 32).signExtend 64) 0 6
    ∧ Gives (.sel d a b k) s s d (if s.readK k then s.readG a else s.readG b) 0 4

/-- Away from the end of local memory each instruction of R193 to R195 completes with its value in gd, latency 4, and
changes nothing else: sign-extended ADDI, zero-extended logic immediates, shifts and rotates by imm16[5:0], MOVZ, MOVK
and MOVN at halfword s, and the bit fields of R195. (R193, R194, R195) -/
def Obligations.IntegerImmediate : Prop :=
  ∀ (s : State) (d a : GReg) (i : BitVec 16) (k l p : BitVec 6) (h : BitVec 2), s.pc ≠ 0xFFFC →
    Gives (.addi d a i) s s d (s.readG a + i.signExtend 64) 0 4
    ∧ Gives (.andi d a i) s s d (s.readG a &&& i.zeroExtend 64) 0 4
    ∧ Gives (.ori d a i) s s d (s.readG a ||| i.zeroExtend 64) 0 4
    ∧ Gives (.xori d a i) s s d (s.readG a ^^^ i.zeroExtend 64) 0 4
    ∧ Gives (.slli d a k) s s d (s.readG a <<< k.toNat) 0 4
    ∧ Gives (.srli d a k) s s d (s.readG a >>> k.toNat) 0 4
    ∧ Gives (.srai d a k) s s d ((s.readG a).sshiftRight k.toNat) 0 4
    ∧ Gives (.rori d a k) s s d ((s.readG a).rotateRight k.toNat) 0 4
    ∧ Gives (.movz d h i) s s d (i.zeroExtend 64 <<< (16 * h.toNat)) 0 4
    ∧ Gives (.movk d h i) s s d
        ((s.readG d &&& ~~~((0xFFFF : W64) <<< (16 * h.toNat))) ||| (i.zeroExtend 64 <<< (16 * h.toNat))) 0 4
    ∧ Gives (.movn d h i) s s d (~~~(i.zeroExtend 64 <<< (16 * h.toNat))) 0 4
    ∧ (fieldFits l p →
        Gives (.extu d a l p) s s d (BitVec.ofNat 64 ((s.readG a).toNat / 2 ^ p.toNat % 2 ^ (l.toNat + 1))) 0 4
        ∧ Gives (.exts d a l p) s s d (BitVec.ofInt 64 (sfield (l.toNat + 1) ((s.readG a).toNat / 2 ^ p.toNat))) 0 4
        ∧ Gives (.ins d a l p) s s d
            ((s.readG d &&& ~~~(BitVec.ofNat 64 (2 ^ (l.toNat + 1) - 1) <<< p.toNat))
              ||| ((s.readG a &&& BitVec.ofNat 64 (2 ^ (l.toNat + 1) - 1)) <<< p.toNat)) 0 4)

/-- Away from the end of local memory each instruction of R196 to R198 completes with its value in gd and changes nothing
else; counts are of the 64 bits of ga, CRC takes the CRC-32C step over 1, 2, 4 or 8 bytes of gb, HMIX the mix of R198
of ga XOR gb. (R196, R197, R198) -/
def Obligations.BitsCrcHash : Prop :=
  ∀ (s : State) (d a b : GReg), s.pc ≠ 0xFFFC →
    (∃ n, Gives (.clz d a) s s d (BitVec.ofNat 64 n) 0 4 ∧ n ≤ 64 ∧ (s.readG a).toNat < 2 ^ (64 - n)
        ∧ (n < 64 → (s.readG a).getLsbD (63 - n) = true))
    ∧ (∃ n, Gives (.ctz d a) s s d (BitVec.ofNat 64 n) 0 4 ∧ n ≤ 64 ∧ (∀ i, i < n → (s.readG a).getLsbD i = false)
        ∧ (n < 64 → (s.readG a).getLsbD n = true))
    ∧ Gives (.popc d a) s s d (BitVec.ofNat 64 (((List.range 64).filter (fun i => (s.readG a).getLsbD i)).length)) 0 4
    ∧ (∃ v : W64, Gives (.brev d a) s s d v 0 4 ∧ ∀ i, i < 64 → v.getLsbD i = (s.readG a).getLsbD (63 - i))
    ∧ Gives (.bswap d a) s s d (BitVec.ofNat 64 (leNat (leBytes 8 (s.readG a).toNat).reverse)) 0 4
    ∧ Gives (.sextB d a) s s d (((s.readG a).truncate 8).signExtend 64) 0 4
    ∧ Gives (.sextH d a) s s d (((s.readG a).truncate 16).signExtend 64) 0 4
    ∧ Gives (.sextW d a) s s d (((s.readG a).truncate 32).signExtend 64) 0 4
    ∧ Gives (.zextW d a) s s d (((s.readG a).truncate 32).zeroExtend 64) 0 4
    ∧ Gives (.crcB d a b) s s d ((crcStep 1 ((s.readG a).truncate 32) (s.readG b)).zeroExtend 64) 0 4
    ∧ Gives (.crcH d a b) s s d ((crcStep 2 ((s.readG a).truncate 32) (s.readG b)).zeroExtend 64) 0 4
    ∧ Gives (.crcW d a b) s s d ((crcStep 4 ((s.readG a).truncate 32) (s.readG b)).zeroExtend 64) 0 4
    ∧ Gives (.crcD d a b) s s d ((crcStep 8 ((s.readG a).truncate 32) (s.readG b)).zeroExtend 64) 0 4
    ∧ Gives (.hmix d a b) s s d (hmix (s.readG a ^^^ s.readG b)) 0 6

/-- Away from the end of local memory each compare and condition-bit instruction of R199 and R200 completes with its
outcome in kd, PC + 4, latency 4, no flag, no g register, no other condition bit and nothing outside the slot changed.
PKK gives gd a value whose bit i is k_i where mask bit i is 1 and whose other bits are 0; UPK gives each k_i named by
the mask bit i of ga and leaves the other condition bits; both advance the PC with latency 4 and change nothing else
in the slot, outside it or in memory. (R199, R200, R201) -/
def Obligations.ConditionBits : Prop :=
  (∀ (s : State) (k p q : KReg) (a b : GReg) (i : BitVec 16), s.pc ≠ 0xFFFC →
    SetsK (.ceq k a b) s k (decide (s.readG a = s.readG b)) 0 4
    ∧ SetsK (.cne k a b) s k (decide (s.readG a ≠ s.readG b)) 0 4
    ∧ SetsK (.clt k a b) s k (decide ((s.readG a).toInt < (s.readG b).toInt)) 0 4
    ∧ SetsK (.cge k a b) s k (decide ((s.readG b).toInt ≤ (s.readG a).toInt)) 0 4
    ∧ SetsK (.cltu k a b) s k (decide ((s.readG a).toNat < (s.readG b).toNat)) 0 4
    ∧ SetsK (.cgeu k a b) s k (decide ((s.readG b).toNat ≤ (s.readG a).toNat)) 0 4
    ∧ SetsK (.ctst k a b) s k (decide (s.readG a &&& s.readG b ≠ 0)) 0 4
    ∧ SetsK (.kand k p q) s k (s.readK p && s.readK q) 0 4
    ∧ SetsK (.kor k p q) s k (s.readK p || s.readK q) 0 4
    ∧ SetsK (.kxor k p q) s k (s.readK p != s.readK q) 0 4
    ∧ SetsK (.kandn k p q) s k (s.readK p && !s.readK q) 0 4
    ∧ SetsK (.knot k p) s k (!s.readK p) 0 4
    ∧ SetsK (.kset k) s k true 0 4
    ∧ SetsK (.kclr k) s k false 0 4
    ∧ SetsK (.ceqi k a i) s k (decide (s.readG a = i.signExtend 64)) 0 4
    ∧ SetsK (.cnei k a i) s k (decide (s.readG a ≠ i.signExtend 64)) 0 4
    ∧ SetsK (.clti k a i) s k (decide ((s.readG a).toInt < i.toInt)) 0 4
    ∧ SetsK (.cgei k a i) s k (decide (i.toInt ≤ (s.readG a).toInt)) 0 4
    ∧ SetsK (.cltui k a i) s k (decide ((s.readG a).toNat < i.toNat)) 0 4
    ∧ SetsK (.cgeui k a i) s k (decide (i.toNat ≤ (s.readG a).toNat)) 0 4)
    ∧ (∀ (s : State) (r : GReg) (m : BitVec 8), s.pc ≠ 0xFFFC →
    (∃ v : W64, Gives (.pkk r m) s s r v 0 4
      ∧ ∀ i, v.getLsbD i = (decide (i < 8) && m.getLsbD i && s.bk.k.getLsbD i))
    ∧ ∃ t, exec (.upk r m) s = .next t ∧ t = s.setSlot s.cur s.slot t.me ∧ (∀ a, t.byteAt a = s.byteAt a)
      ∧ t.me = s.slotAfter (fun b => { b with k := t.bk.k }) 4
      ∧ ∀ j : KReg, t.readK j = if m.getLsbD j.toNat then (s.readG r).getLsbD j.toNat else s.readK j)

/-- Away from the end of local memory FADD, FSUB, FMUL, FMA, FMIN, FMAX, FRCP, FRSQ and the format conversions complete
with the model's value of R203 to R212 in gd (the operand and result layout of R189 and the rounding mode FPS.RM of
the active bank), their flags ORed into FPS, and nothing else changed. PMERGE gives the merged state of R261: a NaN
makes the sum canonical, an empty state takes no part in the choice of the exponent, and otherwise the sum of the two
values moved to the larger exponent is rounded once (a distance beyond 400 powers of two taken as 400, since the
smaller value then only makes the sum inexact). (R189, R203, R204, R205, R207, R210, R211, R212, R213, R261) -/
def Obligations.FloatArithmetic : Prop :=
  ∀ (s : State) (d a b : GReg) (f : FpFmt) (tr : Bool), s.pc ≠ 0xFFFC →
    let x := s.fpArg f a
    let y := s.fpArg f b
    let n := fracBits f
    let rm := s.bk.fps.toNat / 2 ^ 8 % 4
    let irm := if tr then 1 else rm
    Gives (.fadd d a b f) s s d (fpReg f (fpAdd n rm x y).1) (fpAdd n rm x y).2 8
    ∧ Gives (.fsub d a b f) s s d (fpReg f (fpSub n rm x y).1) (fpSub n rm x y).2 8
    ∧ Gives (.fmul d a b f) s s d (fpReg f (fpMul n rm x y).1) (fpMul n rm x y).2 8
    ∧ Gives (.fma d a b f) s s d (fpReg f (fpFma n rm x y (s.fpArg f d)).1) (fpFma n rm x y (s.fpArg f d)).2 8
    ∧ Gives (.fmin d a b f) s s d (fpReg f (fpMin (fpWord f (s.readG a)) (fpWord f (s.readG b)) false).1)
        (fpMin (fpWord f (s.readG a)) (fpWord f (s.readG b)) false).2 8
    ∧ Gives (.fmax d a b f) s s d (fpReg f (fpMin (fpWord f (s.readG a)) (fpWord f (s.readG b)) true).1)
        (fpMin (fpWord f (s.readG a)) (fpWord f (s.readG b)) true).2 8
    ∧ Gives (.frcp d a f) s s d (fpReg f (fpRcp n x).1) (fpRcp n x).2 12
    ∧ Gives (.frsq d a f) s s d (fpReg f (fpRsq n x).1) (fpRsq n x).2 12
    ∧ Gives (.fcvtSB d a) s s d (fpReg .s (fpNarrow 23 rm (s.fpArg .b a)).1) (fpNarrow 23 rm (s.fpArg .b a)).2 8
    ∧ Gives (.fcvtBS d a) s s d (fpReg .b (fpNarrow 7 rm (s.fpArg .s a)).1) (fpNarrow 7 rm (s.fpArg .s a)).2 8
    ∧ Gives (.ftow d a tr f) s s d (BitVec.ofInt 64 (fpToInt irm (-2 ^ 31) (2 ^ 31 - 1) x).1) (fpToInt irm (-2 ^ 31) (2 ^ 31 - 1) x).2 8
    ∧ Gives (.ftowu d a tr f) s s d (BitVec.ofInt 64 (fpToInt irm 0 (2 ^ 32 - 1) x).1) (fpToInt irm 0 (2 ^ 32 - 1) x).2 8
    ∧ Gives (.ftol d a tr f) s s d (BitVec.ofInt 64 (fpToInt irm (-2 ^ 63) (2 ^ 63 - 1) x).1) (fpToInt irm (-2 ^ 63) (2 ^ 63 - 1) x).2 8
    ∧ Gives (.ftolu d a tr f) s s d (BitVec.ofInt 64 (fpToInt irm 0 (2 ^ 64 - 1) x).1) (fpToInt irm 0 (2 ^ 64 - 1) x).2 8
    ∧ Gives (.wtof d a f) s s d (fpReg f (fpOfInt n rm (((s.readG a).truncate 32 : W32).toInt)).1)
        (fpOfInt n rm (((s.readG a).truncate 32 : W32).toInt)).2 8
    ∧ Gives (.wutof d a f) s s d (fpReg f (fpOfInt n rm (((s.readG a).truncate 32 : W32).toNat)).1)
        (fpOfInt n rm (((s.readG a).truncate 32 : W32).toNat)).2 8
    ∧ Gives (.ltof d a f) s s d (fpReg f (fpOfInt n rm (s.readG a).toInt).1) (fpOfInt n rm (s.readG a).toInt).2 8
    ∧ Gives (.lutof d a f) s s d (fpReg f (fpOfInt n rm (s.readG a).toNat).1) (fpOfInt n rm (s.readG a).toNat).2 8
    ∧ (let sa := (s.readG a).toNat % 2 ^ 32
       let sb := (s.readG b).toNat % 2 ^ 32
       let ea := sfield 32 ((s.readG a).toNat / 2 ^ 32)
       let eb := sfield 32 ((s.readG b).toNat / 2 ^ 32)
       let e := max ea eb
       let isNan := fun (v : Nat) => 0x7F800000 < v % 2 ^ 31
       let isZero := fun (v : Nat) => v % 2 ^ 31 = 0
       let signals := fun (v : Nat) => isNan v ∧ v / 2 ^ 22 % 2 = 0
       let sum := fun (e : Int) (w : Nat) (fl : W32) => Gives (.pmerge d a b) s s d (BitVec.ofInt 64 (e % 2 ^ 32 * 2 ^ 32 + w)) fl 8
       let moved := fun (v : Nat) (n : Int) => match fpOf v with
         | .fin neg m k => Fp.fin neg m (k - n)
         | x => x
       (isNan sa ∨ isNan sb → sum e 0x7FC00000 (if signals sa ∨ signals sb then 0x10 else 0))
       ∧ (isZero sa → isZero sb → sum e (if sa = 2 ^ 31 ∧ sb = 2 ^ 31 then 2 ^ 31 else 0) 0)
       ∧ (isZero sa → ¬ isZero sb → ¬ isNan sb → sum eb sb 0)
       ∧ (isZero sb → ¬ isZero sa → ¬ isNan sa → sum ea sa 0)
       ∧ (¬ isZero sa → ¬ isZero sb → ¬ isNan sa → ¬ isNan sb →
          let r := fpAdd 23 rm (moved sa (min (e - ea) 400)) (moved sb (min (e - eb) 400))
          sum e r.1 r.2)
       ∧ (rm = 0 → 0x01000000 ≤ sb % 2 ^ 31 → sb % 2 ^ 31 < 0x7F800000 → ¬ isZero sa → sa % 2 ^ 31 < 0x7F800000 → 400 < e - ea →
          sum e sb 1))

/-- For an FP32 operand that is no NaN, FABS clears bit 31 of ga[31:0], FNEG inverts it and FCPYS takes it from gb; for a
NaN operand (exponent all ones, fraction not zero) each gives 0x7FC0_0000; bits [63:32] of gd are 0, no flag changes,
and nothing else changes. The BF16 forms do the same with bits [15:0] and 0x7FC0. (R206) -/
def Obligations.FloatSigns : Prop :=
  ∀ (s : State) (d a b : GReg), s.pc ≠ 0xFFFC →
    let isNan32 := fun (v : Nat) => v / 2 ^ 23 % 256 = 255 ∧ v % 2 ^ 23 ≠ 0
    let isNan16 := fun (v : Nat) => v / 2 ^ 7 % 256 = 255 ∧ v % 2 ^ 7 ≠ 0
    let x := (s.readG a).toNat % 2 ^ 32
    let y := (s.readG b).toNat % 2 ^ 32
    let u := (s.readG a).toNat % 2 ^ 16
    let w := (s.readG b).toNat % 2 ^ 16
    (isNan32 x → Gives (.fabs d a .s) s s d 0x7FC00000 0 8 ∧ Gives (.fneg d a .s) s s d 0x7FC00000 0 8
      ∧ Gives (.fcpys d a b .s) s s d 0x7FC00000 0 8)
    ∧ (¬ isNan32 x → Gives (.fabs d a .s) s s d (BitVec.ofNat 64 (x % 2 ^ 31)) 0 8
      ∧ Gives (.fneg d a .s) s s d (BitVec.ofNat 64 (x % 2 ^ 31 + (1 - x / 2 ^ 31) * 2 ^ 31)) 0 8
      ∧ Gives (.fcpys d a b .s) s s d (BitVec.ofNat 64 (x % 2 ^ 31 + y / 2 ^ 31 * 2 ^ 31)) 0 8)
    ∧ (isNan16 u → Gives (.fabs d a .b) s s d 0x7FC0 0 8 ∧ Gives (.fneg d a .b) s s d 0x7FC0 0 8
      ∧ Gives (.fcpys d a b .b) s s d 0x7FC0 0 8)
    ∧ (¬ isNan16 u → Gives (.fabs d a .b) s s d (BitVec.ofNat 64 (u % 2 ^ 15)) 0 8
      ∧ Gives (.fneg d a .b) s s d (BitVec.ofNat 64 (u % 2 ^ 15 + (1 - u / 2 ^ 15) * 2 ^ 15)) 0 8
      ∧ Gives (.fcpys d a b .b) s s d (BitVec.ofNat 64 (u % 2 ^ 15 + w / 2 ^ 15 * 2 ^ 15)) 0 8)

/-- With w(g) the FP32 word of an operand (g[31:0], or g[15:0] x 2^16 for BF16): FCLASS gives exactly one of the ten bits
of R208, told by sign, exponent and fraction of w(ga), for both formats, and sets no flag; FCEQ, FCLT and FCLE write
to kd whether no operand is a NaN and the values are equal, less, or not greater (the magnitude bits with the sign, so
+0 and -0 compare equal); FCUN writes whether an operand is a NaN; FCLT and FCLE set NV for any NaN operand, FCEQ and
FCUN for a signalling one; nothing else changes. (R189, R208, R209) -/
def Obligations.FloatClassAndCompare : Prop :=
  ∀ (s : State) (d a b : GReg) (k : KReg) (f : FpFmt), s.pc ≠ 0xFFFC →
    let word := fun (g : W64) => if f = .s then g.toNat % 2 ^ 32 else g.toNat % 2 ^ 16 * 2 ^ 16
    let v := word (s.readG a)
    let w := word (s.readG b)
    let neg := v / 2 ^ 31 % 2 = 1
    let e := v / 2 ^ 23 % 256
    let m := v % 2 ^ 23
    let isNan := fun (v : Nat) => 0x7F800000 < v % 2 ^ 31
    let signals := fun (v : Nat) => 0x7F800000 < v % 2 ^ 31 ∧ v / 2 ^ 22 % 2 = 0
    let value := fun (v : Nat) => if v / 2 ^ 31 % 2 = 1 then -((v % 2 ^ 31 : Nat) : Int) else ((v % 2 ^ 31 : Nat) : Int)
    let nan := isNan v ∨ isNan w
    let quietly : W32 := if signals v ∨ signals w then 0x10 else 0
    let always : W32 := if nan then 0x10 else 0
    (∃ c, c < 10 ∧ Gives (.fclass d a f) s s d (BitVec.ofNat 64 (2 ^ c)) 0 8
      ∧ (c = 0 ↔ e = 255 ∧ 2 ^ 22 ≤ m) ∧ (c = 1 ↔ e = 255 ∧ 0 < m ∧ m < 2 ^ 22)
      ∧ (c = 2 ↔ e = 255 ∧ m = 0 ∧ ¬ neg) ∧ (c = 9 ↔ e = 255 ∧ m = 0 ∧ neg)
      ∧ (c = 3 ↔ 0 < e ∧ e < 255 ∧ ¬ neg) ∧ (c = 8 ↔ 0 < e ∧ e < 255 ∧ neg)
      ∧ (c = 4 ↔ e = 0 ∧ m ≠ 0 ∧ ¬ neg) ∧ (c = 7 ↔ e = 0 ∧ m ≠ 0 ∧ neg)
      ∧ (c = 5 ↔ e = 0 ∧ m = 0 ∧ ¬ neg) ∧ (c = 6 ↔ e = 0 ∧ m = 0 ∧ neg))
    ∧ SetsK (.fceq k a b f) s k (decide (¬ nan ∧ value v = value w)) quietly 8
    ∧ SetsK (.fclt k a b f) s k (decide (¬ nan ∧ value v < value w)) always 8
    ∧ SetsK (.fcle k a b f) s k (decide (¬ nan ∧ value v ≤ value w)) always 8
    ∧ SetsK (.fcun k a b f) s k (decide nan) quietly 8

/-- A taken branch and J set PC to PC + 4 x sext(off) modulo 2^16, JR to ga[15:2] x 4; each empties the fetch buffer, is
ready 5 cycles later and writes no register, flag or memory; a branch that is not taken, away from the end of local
memory, advances the PC by 4 with latency 4 and keeps the buffer; at 0xFFFC, outside a handler, it raises the fetch
trap with EVAL 0x1_0000. (R153, R214, R215, R216, R218, R219) -/
def Obligations.Branches : Prop :=
  ∀ (s : State) (a b : GReg) (k : KReg) (o : BitVec 16) (o' : BitVec 26),
    let goes := fun (i : Instr) => JumpsTo i s s (s.pc + 4 * o)
    let stays := fun (i : Instr) => (s.pc ≠ 0xFFFC → Completes i s s 4)
      ∧ (s.pc = 0xFFFC → s.bk.inTrap = false → TrapsTo i s s 0x01 0x10000 0 false)
    (if s.readG a = s.readG b then goes (.beq a b o) else stays (.beq a b o))
    ∧ (if s.readG a = s.readG b then stays (.bne a b o) else goes (.bne a b o))
    ∧ (if (s.readG a).toInt < (s.readG b).toInt then goes (.blt a b o) else stays (.blt a b o))
    ∧ (if (s.readG a).toInt < (s.readG b).toInt then stays (.bge a b o) else goes (.bge a b o))
    ∧ (if (s.readG a).toNat < (s.readG b).toNat then goes (.bltu a b o) else stays (.bltu a b o))
    ∧ (if (s.readG a).toNat < (s.readG b).toNat then stays (.bgeu a b o) else goes (.bgeu a b o))
    ∧ (if s.readK k then goes (.bkt k o) else stays (.bkt k o))
    ∧ (if s.readK k then stays (.bkf k o) else goes (.bkf k o))
    ∧ JumpsTo (.j o') s s (s.pc + 4 * (o'.signExtend 64).truncate 16)
    ∧ JumpsTo (.jr a) s s ((s.readG a).truncate 16 &&& 0xFFFC)

/-- On a strand slot in bank 0, away from the end of local memory: if FB + n is at most 512, CALL and CALLR set g1 to FB x
2^32 + PC + 4, FB to FB + n and the PC to the target; above 512 they raise the spill-limit trap and change nothing.
(R144, R215, R217, R218) -/
def Obligations.CallRule : Prop :=
  ∀ (s : State) (n : BitVec 7) (o : BitVec 16) (a : GReg), s.cur < 1536 → s.pc ≠ 0xFFFC → s.me.bank = false →
    let fb := s.me.fb.toNat
    let u := (s.writeG 1 (BitVec.ofNat 64 (fb * 2 ^ 32 + s.pc.toNat + 4))).updMe
      (fun x => { x with fb := BitVec.ofNat 10 (fb + 8 * n.toNat) })
    (fb + 8 * n.toNat ≤ 512 → JumpsTo (.call n o) s u (s.pc + 4 * o)
      ∧ JumpsTo (.callr a n) s u ((s.readG a).truncate 16 &&& 0xFFFC))
    ∧ (512 < fb + 8 * n.toNat → s.bk.inTrap = false →
      TrapsTo (.call n o) s s 0x04 (BitVec.ofNat 64 (fb + 8 * n.toNat)) 0 false
      ∧ TrapsTo (.callr a n) s s 0x04 (BitVec.ofNat 64 (fb + 8 * n.toNat)) 0 false)

/-- On a strand slot in bank 0, RET with g1[41:32] at most 512 and a multiple of 8 sets FB to g1[41:32] and PC to g1[15:2]
x 4 whatever the other bits of g1 are, empties the fetch buffer, is ready 5 cycles later, and changes nothing else of
the slot, of its other bank, of the spill memory or outside it; otherwise, outside a handler, it raises the
spill-limit trap with the link word in EVAL and changes nothing else. (R145) -/
def Obligations.ReturnRule : Prop :=
  ∀ (s : State), s.cur < 1536 → s.me.bank = false →
    let fb := (s.readG 1).toNat / 2 ^ 32 % 1024
    (fb ≤ 512 ∧ fb % 8 = 0 → JumpsTo .ret s (s.updMe (fun x => { x with fb := BitVec.ofNat 10 fb }))
      (BitVec.ofNat 16 ((s.readG 1).toNat / 4 % 2 ^ 14 * 4)))
    ∧ (512 < fb ∨ fb % 8 ≠ 0 → s.bk.inTrap = false → TrapsTo .ret s s 0x04 (s.readG 1) 0 false)

/-- On a strand slot in bank 0, away from the end of local memory, with off a multiple of 8: if FB + off + 8 is at most
512, SPL stores gd at that spill address and changes no other spill address, register or memory byte, and FIL gives gd
the doubleword there and changes nothing else; above 512, outside a handler, each raises the spill-limit trap and
changes nothing. (R143, R221) -/
def Obligations.SpillMoves : Prop :=
  ∀ (s : State) (d : GReg) (o : BitVec 6), s.cur < 1536 → s.pc ≠ 0xFFFC → s.me.bank = false →
    let a := s.me.fb.toNat + 8 * o.toNat
    (a + 8 ≤ 512 →
      (∃ u, Completes (.spl d o) s u 4 ∧ u = s.setSlot s.cur s.slot { s.me with spill := u.me.spill }
        ∧ mget 0 u.me.spill a = s.readG d ∧ ∀ b, b ≠ a → mget 0 u.me.spill b = mget 0 s.me.spill b)
      ∧ Gives (.fil d o) s s d (mget 0 s.me.spill a) 0 4)
    ∧ (512 < a + 8 → s.bk.inTrap = false →
      TrapsTo (.spl d o) s s 0x04 (BitVec.ofNat 64 a) 0 true ∧ TrapsTo (.fil d o) s s 0x04 (BitVec.ofNat 64 a) 0 false)

/-- On a strand slot whose active bank is bank 1, away from the end of local memory and outside a handler, SPL, FIL, CALL,
CALLR, RET and EXIT raise the illegal-instruction trap with the instruction word in EVAL, taken in bank 1: bank 0, the
spill memory, FB and every register but those of trap entry keep their values. J, JR and the conditional branches run
there: only the PC of bank 1 changes in the banks. (R146, R220, R221, R255) -/
def Obligations.StandbyBankLeafCode : Prop :=
  ∀ (s : State) (d a : GReg) (k : KReg) (o : BitVec 6) (n : BitVec 7) (f : BitVec 16) (j : BitVec 26), s.cur < 1536 →
    s.pc ≠ 0xFFFC → s.me.bank = true →
    (s.bk.inTrap = false → ∀ i ∈ [Instr.spl d o, Instr.fil d o, Instr.call n f, Instr.callr a n, Instr.ret, Instr.exit],
      TrapsTo i s s 0x02 (s.word.zeroExtend 64) 0 false
      ∧ ∃ t, exec i s = .next t ∧ t.me.bank = true ∧ t.me.b0 = s.me.b0 ∧ t.me.spill = s.me.spill ∧ t.me.fb = s.me.fb)
    ∧ ∀ i ∈ [Instr.j j, Instr.jr a, Instr.beq d a f, Instr.bne d a f, Instr.blt d a f, Instr.bge d a f, Instr.bltu d a f,
        Instr.bgeu d a f, Instr.bkt k f, Instr.bkf k f],
      ∃ t, exec i s = .next t ∧ t.me.bank = true ∧ t.me.b0 = s.me.b0 ∧ t.me.b1 = { s.me.b1 with pc := t.me.b1.pc }

/-- Away from the end of local memory, at SUPER, MFSR gives gd each system register of R163 zero-extended and MTSR writes
each writable field and drops the rest (PRIV of ESTAT, reserved bits, all of SLOTST; FB keeps its value when bits
[9:3] x 8 exceed 512); at USER MFSR reads FPS, FB and SLOTST and MTSR writes FPS. FB is a register of strand slots,
reached from either bank (log entry 85); of a lookup slot, which holds none, MFSR 11 gives a free value and MTSR 11
changes nothing (log entry 21). The numbers 13 to 15 raise the illegal-instruction trap outside a handler. Nothing
else changes. At SUPER, away from the end of local memory, XGET gives gd the named g register, condition bits, PC or
FPS of the other bank, and XPUT writes the named one of the other bank (g0 takes nothing; a PC takes bits [15:2] x 4;
FPS takes its fields); the active bank, the rest of the other bank and all else keep their values. (R162, R163, R164,
R165, R166, R262, R263) -/
def Obligations.SystemRegisters : Prop :=
  (∀ (s : State) (d a : GReg) (n : BitVec 4), s.pc ≠ 0xFFFC →
    let b := s.bk
    let v := s.readG a
    let reads := fun (n : BitVec 4) (x : W64) => Gives (.mfsr d n) s s d x 0 4
    let writes := fun (n : BitVec 4) (f : Bank → Bank) => Completes (.mtsr a n) s (s.updBk f) 4
    let off : W32 := v.truncate 32 &&& 0xFFFC
    (s.super = true →
      reads 0 (b.estat.zeroExtend 64) ∧ reads 1 (b.epc.zeroExtend 64) ∧ reads 2 (b.ecause.zeroExtend 64) ∧ reads 3 b.eval
      ∧ reads 4 (b.evec.zeroExtend 64) ∧ reads 5 (s.me.pfvec.zeroExtend 64) ∧ reads 6 b.escr0 ∧ reads 7 b.escr1
      ∧ reads 8 b.escr2 ∧ reads 9 b.escr3
      ∧ writes 0 (fun b => { b with estat := (b.estat &&& 1) ||| (v.truncate 32 &&& 6) })
      ∧ writes 1 (fun b => { b with epc := off })
      ∧ writes 2 (fun b => { b with ecause := v.truncate 32 &&& 0x3FFF })
      ∧ writes 3 (fun b => { b with eval := v }) ∧ writes 4 (fun b => { b with evec := off })
      ∧ Completes (.mtsr a 5) s (s.updMe (fun x => { x with pfvec := off })) 4
      ∧ writes 6 (fun b => { b with escr0 := v }) ∧ writes 7 (fun b => { b with escr1 := v })
      ∧ writes 8 (fun b => { b with escr2 := v }) ∧ writes 9 (fun b => { b with escr3 := v })
      ∧ (s.cur < 1536 → v.toNat / 8 % 128 * 8 ≤ 512 →
          Completes (.mtsr a 11) s (s.updMe (fun x => { x with fb := BitVec.ofNat 10 (v.toNat / 8 % 128 * 8) })) 4)
      ∧ (s.cur < 1536 → 512 < v.toNat / 8 % 128 * 8 → Completes (.mtsr a 11) s s 4)
      ∧ (1536 ≤ s.cur → Completes (.mtsr a 11) s s 4)
      ∧ Completes (.mtsr a 12) s s 4)
    ∧ reads 10 (b.fps.zeroExtend 64)
    ∧ writes 10 (fun b => { b with fps := v.truncate 32 &&& 0x31F })
    ∧ (s.cur < 1536 → reads 11 (s.me.fb.zeroExtend 64))
    ∧ (1536 ≤ s.cur → Gives (.mfsr d 11) s { s with freeCtr := s.freeCtr + 1 } d (Config.freeValue s.freeCtr) 0 4)
    ∧ (12 < n.toNat → s.bk.inTrap = false →
        TrapsTo (.mfsr d n) s s 0x02 (s.word.zeroExtend 64) 0 false ∧ TrapsTo (.mtsr a n) s s 0x02 (s.word.zeroExtend 64) 0 false)
    ∧ reads 12 (BitVec.ofNat 64 ((match s.me.st with | .free => 0 | .run => 1 | .wait => 2 | .halt => 3)
        + (if s.me.bank then 4 else 0) + (if s.me.pfp then 8 else 0))))
    ∧ (∀ (s : State) (d a : GReg) (n : BitVec 5), s.pc ≠ 0xFFFC → s.super = true →
    let o := s.me.other
    let v := s.readG a
    let puts := fun (x : XKind) (f : Bank → Bank) => Completes (.xput a x n) s (s.updMe (fun x => x.updOther f)) 4
    Gives (.xget d .g n) s s d (o.readG n) 0 4 ∧ Gives (.xget d .k n) s s d (o.k.zeroExtend 64) 0 4
    ∧ Gives (.xget d .pc n) s s d (o.pc.zeroExtend 64) 0 4 ∧ Gives (.xget d .fps n) s s d (o.fps.zeroExtend 64) 0 4
    ∧ puts .g (fun b => b.writeG n v) ∧ puts .k (fun b => { b with k := v.truncate 8 })
    ∧ puts .pc (fun b => { b with pc := v.truncate 16 &&& 0xFFFC })
    ∧ puts .fps (fun b => { b with fps := v.truncate 32 &&& 0x31F }))

/-- At USER, outside a handler and away from the end of local memory: on a strand slot or a lookup slot a read of the
system registers 0 to 9, a write of those or of FB or SLOTST, ERET, XGET and XPUT, and on a strand slot TCNT with
clear, LK.IMLD, LK.RUN, LK.HALT, KVCFG, FAB.GRP, FAB.WIN, FAB.WFREE, DQ.QCFG, DQ.PRIO and DQ.QEN, raise the privilege
trap with the instruction word in EVAL; nothing else changes. (R162, R163, R164, R170, R249, R263, R382, R407, R408,
R409, R433, R478) -/
def Obligations.PrivilegeTraps : Prop :=
  ∀ (s : State) (d a b : GReg) (n : BitVec 4) (kind : XKind) (m : BitVec 5) (c : BitVec 1), s.pc ≠ 0xFFFC →
    s.super = false → s.bk.inTrap = false →
    let traps := fun (i : Instr) => TrapsTo i s s 0x03 (s.word.zeroExtend 64) 0 false
    (n.toNat ≤ 9 → traps (.mfsr d n))
    ∧ (n.toNat ≤ 9 ∨ n = 11 ∨ n = 12 → traps (.mtsr a n))
    ∧ (∀ i ∈ [Instr.eret, Instr.xget d kind m, Instr.xput a kind m], traps i)
    ∧ (s.cur < 1536 → ∀ i ∈ [Instr.tcnt d true c, Instr.lkImld a b, Instr.lkRun a b,
        Instr.lkHalt d a, Instr.kvcfg d a, Instr.fabGrp d a b, Instr.fabWin d a b, Instr.fabWfree d a, Instr.dqQcfg d a b,
        Instr.dqPrio a b, Instr.dqQen a b], traps i)

/-- Outside a handler TRAP (away from the end of local memory) saves 0x15 in ECAUSE, its immediate in EVAL and PC + 4 in
EPC; an unassigned word saves 0x02, the word and its PC; a lookup slot's PC that cannot be fetched saves 0x01, that PC
and that PC. PPRIV takes PRIV, PRIV and IN become 1, PC becomes EVEC, the fetch buffer is empty, the slot is ready 2
cycles later, and nothing else changes. At 0xFFFC every instruction of a strand slot that has an encoding there, but
the branches (stated apart), J, JR, RET, ERET and EXIT, raises the fetch trap with EVAL 0x1_0000 and nothing else. At
SUPER, ERET in bank 1 with IN = 0 makes bank 0 active and clears PFP with every register kept; otherwise it sets PC to
EPC, PRIV to PPRIV and IN to 0 in the active bank; in both cases the fetch buffer is empty, the slot is ready 5 cycles
later, and nothing else changes. (R153, R164, R165, R167, R169, R170, R188, R378) -/
def Obligations.TrapEntryAndReturn : Prop :=
  (∀ (s : State) (e : BitVec 11) (w : W32), s.bk.inTrap = false →
    (s.pc ≠ 0xFFFC → ∃ t, exec (.trap e) s = .next t ∧ t = s.setSlot s.cur s.slot t.me ∧ (∀ x, t.byteAt x = s.byteAt x)
      ∧ t.me = { s.me.updActive (fun b => { b with
          ecause := 0x15, eval := e.zeroExtend 64, epc := (b.pc + 4).zeroExtend 32,
          estat := if b.estat.getLsbD 0 then 7 else 5, pc := b.evec.truncate 16 }) with
        fetch := [], readyAt := s.cycle + 2, drained := false, clearedLine := none, latched := none, wait := .none, st := .run })
    ∧ TrapsTo (.illegalInstruction w) s s 0x02 (w.zeroExtend 64) 0 false
    ∧ TrapsTo .lookupFetchFault s s 0x01 (s.pc.zeroExtend 64) 0 false
    ∧ (s.pc = 0xFFFC → s.cur < 1536 → ∀ i v, encode? i = some v → lookupWord v.toNat = false →
        match i with
        | .beq .. | .bne .. | .blt .. | .bge .. | .bltu .. | .bgeu .. | .bkt .. | .bkf .. | .j .. | .jr .. | .ret | .eret | .exit => True
        | _ => TrapsTo i s s 0x01 0x10000 0 false))
    ∧ (∀ (s : State), s.super = true →
    ∃ t, exec .eret s = .next t ∧ t = s.setSlot s.cur s.slot t.me ∧ (∀ x, t.byteAt x = s.byteAt x)
      ∧ t.me = (if s.me.bank = true ∧ s.bk.estat.getLsbD 2 = false
          then { s.me with bank := false, pfp := false, fetch := [], readyAt := s.cycle + 5, drained := false, clearedLine := none, latched := none }
          else { s.me.updActive (fun b => { b with
              pc := b.epc.truncate 16, estat := if b.estat.getLsbD 1 then 3 else 0 }) with
            fetch := [], readyAt := s.cycle + 5, drained := false, clearedLine := none, latched := none }))

/-- With IN = 1 in the active bank a trap of each cause of R167 (a fetch fault, an unassigned word, a privileged register
at USER, a spill limit, a mesh address, the four checks of a handle, a stale or closed tile and its bounds, a
position, a domain and a format code, a malformed operand, a non-canonical address, a memory error and TRAP), and in
bank 1 an XLAT of a page that is not found, halt the slot with both banks unchanged; the machine-check log takes one
record at MCHEAD whose detail is made of the core, the slot, the bank, ECAUSE and the new cause; the task bound to the
core is noted for its fault end; no other slot and no byte of memory changes. A memory error leaves its own record
before. The kind code 0x16 and the layout of the detail are the model's choice (log entry 16). (R167, R171, R173,
R495) -/
def Obligations.DoubleTrap : Prop :=
  ∀ (s : State) (w : W32) (d a b : GReg) (h : HReg) (m : Bool) (e : BitVec 11) (n : BitVec 4) (i : BitVec 12) (o : BitVec 6) (z : MemSize),
    let halts := fun (u : State) (i : Instr) (cause : Nat) => ∃ t, exec i s = .next t
      ∧ t.me = { s.me with st := .halt, wait := .none, drained := false, clearedLine := none, latched := none }
      ∧ t.cores = (s.setSlot s.cur s.slot t.me).cores ∧ t.mem = s.mem ∧ t.mgmt.mchead = u.mgmt.mchead + 1
      ∧ (let r := mget ⟨0, 0, 0, 0, true⟩ t.mgmt.mclog u.mgmt.mchead.toNat
         let x := Config.recordDetail 0x16 [s.cur, s.slot, if s.me.bank then 1 else 0, s.bk.ecause.toNat, cause]
         r.time = BitVec.ofNat 64 (s.time141 / 141) ∧ r.word2 = x.extractLsb' 0 64 ∧ r.word3 = x.extractLsb' 64 64)
      ∧ t.dist.halted = s.dist.halted ++ (match (s.core s.cur).task with | some k => [(k, s.cur)] | none => [])
    let v := (s.readG a).toNat
    let ea := s.readG a + i.signExtend 64
    let key := ownBase s.cur + ea.toNat
    let size := if 1536 ≤ s.cur then 0x8000 else 0x10000
    let spill := s.me.fb.toNat + 8 * o.toNat
    let hd := s.readH h
    let st := match s.me.latched with | some (.handle x) => x | _ => hd
    let off := (s.readG a).toInt + i.toInt
    let reg := h.toNat * 256
    let r := tileRef ((s.readG a).truncate 32)
    let x := s.buf r.cl r.b
    let own := r.dev = s.devNum ∧ r.cl ≤ 95 ∧ r.b ≤ 383
    let toff := v / 2 ^ 32 % 2 ^ 16
    let row := v / 2 ^ 48 % 2 ^ 6
    (s.bk.inTrap = true →
      halts s (.illegalInstruction w) 0x02 ∧ halts s .lookupFetchFault 0x01
      ∧ (s.pc = 0xFFFC → halts s (.add d a b) 0x01 ∧ halts s (.trap e) 0x01)
      ∧ (s.pc ≠ 0xFFFC → halts s (.trap e) 0x15
        ∧ (s.super = false → n.toNat ≤ 9 → halts s (.mfsr d n) 0x03)
        ∧ (s.cur < 1536 → s.me.bank = false → 512 < spill + 8 → halts s (.spl d o) 0x2004 ∧ halts s (.fil d o) 0x04)
        ∧ (size < ea.toNat + z.bytes ∨ ea.toNat % z.bytes ≠ 0 → halts s (.ll d a z m i) 0x05 ∧ halts s (.sl d a z i) 0x2005)
        ∧ (off % 8 ≠ 0 → halts s (.ld d a h i) (0x06 + reg) ∧ halts s (.st d a h i) (0x2006 + reg))
        ∧ (off % 8 = 0 → hd.v = false → halts s (.ld d a h i) (0x07 + reg))
        ∧ (off % 8 = 0 → hd.v = true → off < 0 ∨ (hd.span.toNat : Int) < off + 8 → halts s (.ld d a h i) (0x08 + reg))
        ∧ (off % 8 = 0 → st.v = true → 0 ≤ off → off + 8 ≤ st.span.toNat → st.w = false → halts s (.st d a h i) (0x2009 + reg))
        ∧ (ea.toNat + z.bytes ≤ size → ea.toNat % z.bytes = 0 →
            let u := s.landFor s.cur (.localMem s.cur)
            u.mem = s.mem → u.bad key z.bytes = true → halts (u.memError key) (.ll d a z m i) 0x14)
        ∧ (canonical (s.readG a) = false → halts s (.xlat d a h m) 0x12)
        ∧ (s.cur < 1536 →
          (2 ^ 54 ≤ v → halts s (.twrD a b) 0x11)
          ∧ (v < 2 ^ 54 → ¬ own → halts s (.twrD a b) 0x200A)
          ∧ (v < 2 ^ 54 → own → x.gen ≠ r.gen → halts s (.twrD a b) 0x200B)
          ∧ (v < 2 ^ 54 → own → x.gen = r.gen → x.state ≠ .open_ → halts s (.twrD a b) 0x200C)
          ∧ (v < 2 ^ 54 → own → x.gen = r.gen → x.state = .open_ →
            (x.rows ≤ row → halts s (.twrD a b) 0x200D)
            ∧ (row < x.rows → toff = 0 → 2 ^ 24 ≤ (s.readG b).toNat → halts s (.tpos a b) 0x200E))
          ∧ (1 < v / 2 ^ 4 % 16 → halts s (.topen d a b) (0x0F + d.toNat * 256))
          ∧ (v / 2 ^ 4 % 16 ≤ 1 → 6 < v % 16 → halts s (.topen d a b) 0x10))))
    ∧ (s.pc ≠ 0xFFFC → s.me.bank = true → canonical (s.readG a) = true →
        s.pageFor (v % 2 ^ 57) m s.super = none → halts (s.walked (v % 2 ^ 57)) (.xlat d a h m) (0x13 + if m then 0x2000 else 0))

/-- Away from the end of local memory: RDID gives the identity register (the slot for number 3), TIME the time base in
nanoseconds, YIELD n completes after 4 + 16 n cycles, IFENCE empties the fetch buffer, HDROP clears V of its handle,
PREF adds the line at its address, if it is not requested already, to the requests of a strand core's L1 if the
address lies in a live handle of an HBM page and does nothing otherwise; nothing else changes. A lookup slot reads the
device, its stack in bits [31:16], its unit number, its slot, and 0 of every other identity register (R378). Away from
the end of local memory a FENCE whose release part, if it has one, finds nothing outstanding completes: an acquire
part at a scope wider than CORE removes clean lines from the core's L1 and leaves of a dirty line the core's own
bytes, an sc fence advances the core's clock by one, and nothing else changes. With posted stores or dirty lines
outstanding at such a scope a release part makes the slot wait at the same PC. What stays of a dirty line is the
model's reading (log entry 18). (R9, R62, R63, R64, R158, R229, R241, R242, R262, R378) -/
def Obligations.IdentityTimeAndFences : Prop :=
  (∀ (s : State) (d a : GReg) (n : BitVec 4) (y : BitVec 6) (h : HReg) (i : BitVec 8), s.pc ≠ 0xFFFC →
    let hd := s.readH h
    let o := (s.readG a).toInt + 64 * i.toInt
    let goes := hd.v = true ∧ hd.pool = false ∧ 0 ≤ o ∧ o < hd.span.toNat ∧ s.cur < 1536
    Gives (.rdid d 3) s s d (BitVec.ofNat 64 s.slot) 0 4
    ∧ (n ≠ 3 → s.cur < 1536 → Gives (.rdid d n) s s d (mget 0 (s.core s.cur).ident n.toNat) 0 4)
    ∧ (1536 ≤ s.cur → Gives (.rdid d 0) s s d (BitVec.ofNat 64 s.devNum) 0 4
        ∧ Gives (.rdid d 1) s s d (BitVec.ofNat 64 ((s.cur - 1536) / 8 * 2 ^ 16)) 0 4
        ∧ Gives (.rdid d 2) s s d (BitVec.ofNat 64 s.cur) 0 4 ∧ (3 < n.toNat → Gives (.rdid d n) s s d 0 0 4))
    ∧ Gives (.time d) s s d (BitVec.ofNat 64 (s.time141 / 141)) 0 6
    ∧ Completes (.yield y) s s (4 + 16 * y.toNat)
    ∧ Completes .ifence s (s.updMe (fun x => { x with fetch := [] })) 5
    ∧ Completes (.hdrop h) s (s.writeH h { hd with v := false }) 4
    ∧ (goes → let line := 2 * ((hd.pbase.toNat + o.toNat) / 64) + (if hd.rd then 1 else 0)
        let c := s.core s.cur
        Completes (.pref a h i) s (s.setCore s.cur { c with pref := if line ∈ c.pref then c.pref else c.pref ++ [line] }) 4)
    ∧ (¬ goes → Completes (.pref a h i) s s 4))
    ∧ (∀ (s : State) (k : FenceKind) (sc : Scope), s.pc ≠ 0xFFFC → s.cur < 1536 →
    let wide := 2 ≤ sc.code
    let acq := k ≠ .rel
    let l1 := (s.core s.cur).l1.filterMap (fun e => if e.2.dirty = 0 then none else some (e.1, { e.2 with valid := e.2.dirty }))
    let u1 := if acq ∧ wide then s.setCore s.cur { s.core s.cur with l1 := l1 } else s
    let u := if k = .sc then { u1 with clocks := mset 0 s.clocks s.cur (mget 0 s.clocks s.cur + 1) } else u1
    (k = .acq ∨ Released s sc → Completes (.fence k sc) s u (if acq ∧ wide then 6 else 4))
    ∧ (k ≠ .acq → wide → sc ≠ .domain → s.me.drained = false → s.clean = false →
        ∃ t, exec (.fence k sc) s = .next t ∧ t.me.wait = .release ∧ t.bk = s.bk ∧ t.mem = s.mem))

/-- Away from the end of local memory: XLAT of a canonical address whose page is found with the permission asked for
writes the handle h (valid, writable as asked, the page's pool, size and duplication marks, the virtual address, its
physical address and the bytes left in the page), gives gd that span with latency 48 and changes nothing else, but
that entries of the page tables that the walk finds in error are reported (log entry 7); an address whose bits [63:57]
are not copies of bit 56 raises trap 0x12 outside a handler and changes nothing else. Away from the end of local
memory, in bank 0, an XLAT of a canonical address whose page is not found writes no handle and changes no register of
bank 0: PFP and BANK become 1, g2, g3 and g4 of bank 1 take the address, the handle number with the permission asked
for in bit 4, and the PC of bank 0; in bank 1 PRIV is 1, IN is 0 and PC is PFVEC; the fetch buffer is empty and the
slot is ready 48 + 2 cycles after selection; nothing outside the slot changes but such a report. (R21, R22, R173,
R228) -/
def Obligations.TranslationAndParking : Prop :=
  (∀ (s : State) (d a : GReg) (h : HReg) (w : Bool), s.pc ≠ 0xFFFC →
    let va := s.readG a
    let page := s.pageFor (va.toNat % 2 ^ 57) w s.super
    (canonical va = true → ∀ p, page = some p →
      let size : Nat := match p.size with | .p4k => 4096 | .p2m => 2097152 | .p1g => 1073741824
      let off := va.toNat % 2 ^ 57 % size
      let hd : Handle := { v := true, w := w, pool := p.pool, psz := p.size, rd := p.rd, vbase := va,
                            pbase := BitVec.ofNat 64 (p.base + off), span := BitVec.ofNat 64 (size - off) }
      Gives (.xlat d a h w) s ((s.walked (va.toNat % 2 ^ 57)).writeH h hd) d (BitVec.ofNat 64 (size - off)) 0 48)
    ∧ (canonical va = false → s.bk.inTrap = false → TrapsTo (.xlat d a h w) s s 0x12 va 0 false))
    ∧ (∀ (s : State) (d a : GReg) (h : HReg) (w : Bool), s.pc ≠ 0xFFFC → s.me.bank = false → canonical (s.readG a) = true →
    s.pageFor ((s.readG a).toNat % 2 ^ 57) w s.super = none →
    ∃ t, exec (.xlat d a h w) s = .next t ∧ t = (s.walked ((s.readG a).toNat % 2 ^ 57)).setSlot s.cur s.slot t.me
      ∧ (∀ x, t.byteAt x = s.byteAt x)
      ∧ t.me = { s.me with pfp := true, bank := true, fetch := [], readyAt := s.cycle + 50, b1 := t.me.b1 }
      ∧ t.me.b1.readG 2 = s.readG a ∧ t.me.b1.readG 3 = BitVec.ofNat 64 (h.toNat + if w then 16 else 0)
      ∧ t.me.b1.readG 4 = s.me.b0.pc.zeroExtend 64
      ∧ (∀ r, r ≠ 2 → r ≠ 3 → r ≠ 4 → t.me.b1.readG r = s.me.b1.readG r)
      ∧ t.me.b1 = { s.me.b1 with g := t.me.b1.g, pc := s.me.pfvec.truncate 16, estat := t.me.b1.estat }
      ∧ t.me.b1.estat.getLsbD 0 = true ∧ t.me.b1.estat.getLsbD 2 = false
      ∧ ∀ j, j ≠ 0 → j ≠ 2 → t.me.b1.estat.getLsbD j = s.me.b1.estat.getLsbD j)

/-- Away from the end of local memory, with an aligned offset inside a live handle (writable for ST) on an address the
device maps: LD of a strand core whose L1 holds the bytes gives them in 7 cycles (or the memory-error trap) and
changes only recency; else it waits for its line. LD of a pool page or by a lookup slot reads the 8 bytes at the home
after the unit's own earlier posted stores on that path. ST of a strand core writes the L1, a line that is not there
taking the least recently used clean way and beginning to fill, and marks it dirty; with no such way it waits. ST to a
pool page or by a lookup slot posts the 8 bytes. ST to a line of a read-duplicated page is performed at the home, the
core's own copy dropped (log entry 22), and waits first until no slice holds a replica; that accesses at the home take
8 cycles is the floor of R139 (log entry 4). Bytes in two lines are treated part by part (log entry 75). ST takes the
handle with which it was issued, where it has waited (R23). An address that R486 leaves unmapped ends the run (log
entry 6). No other register, and no byte of memory but for stores already posted, changes. (R22, R23, R66, R77, R139,
R148, R149, R230, R231, R380, R486, R498) -/
def Obligations.GlobalAccess : Prop :=
  ∀ (s : State) (d a : GReg) (h : HReg) (i : BitVec 12) (hd : Handle), s.pc ≠ 0xFFFC →
    let loads := hd = s.readH h
    let stores := hd = (match s.me.latched with | some (.handle x) => x | _ => s.readH h) ∧ hd.w = true
    let o := (s.readG a).toInt + i.toInt
    let pa := hd.pbase.toNat + o.toNat
    let va := hd.vbase + BitVec.ofInt 64 o
    let off := pa % 64
    let c := s.core s.cur
    let l := mget {} c.l1 (pa / 64)
    let m := BitVec.ofNat 64 (255 * 2 ^ off)
    let n := 64 - off
    let next := 64 * (pa / 64 + 1)
    let l2 := mget {} c.l1 (pa / 64 + 1)
    let m1 := BitVec.ofNat 64 ((2 ^ n - 1) * 2 ^ off)
    let m2 := BitVec.ofNat 64 (2 ^ (8 - n) - 1)
    let v := (s.readG d).toNat
    let home := hd.pool = true ∨ 1536 ≤ s.cur
    let there := fun (k : Core) (x : Nat) => k.l1.any (fun e => e.1 == x / 64) = true
    let fixed := fun (x : Nat) => (if c.l1.any (fun e => e.1 == x / 64) then (mget {} c.l1 (x / 64)).ro else hd.rd) = true
    let dup := if home then hd.rd = true else fixed pa ∨ (56 < off ∧ fixed next)
    let part := fun (k : Core) (x w y : Nat) =>
      (if there k x then some (k.l1, mget {} k.l1 (x / 64)) else (makeWay k.l1 (x / 64)).map (fun m => (m, { filling := true }))).map
        (fun (e : Map Line × Line) => { k with
          l1 := mset {} e.1 (x / 64) { e.2.write (x % 64) w y with
            used := s.ticket + 1, since := if e.2.dirty = 0 then s.cycle else e.2.since }
          fifo := if e.2.dirty = 0 then k.fifo ++ [.line (x / 64)] else k.fifo })
    let stored := if off ≤ 56 then part c pa 8 v else (part c pa n v).bind (fun k => part k next (8 - n) (v / 2 ^ (8 * n)))
    let waits := fun (w : Wait) (st : SlotState) => exec (.st d a h i) s =
      .next (s.setSlot s.cur s.slot { s.me with wait := w, st := st, latched := some (.handle hd) })
    hd.v = true → o % 8 = 0 → 0 ≤ o → o + 8 ≤ hd.span.toNat →
      (s.mapped pa = false → (loads → exec (.ld d a h i) s = .fault (.unmappedPhysical pa))
        ∧ (stores → exec (.st d a h i) s = .fault (.unmappedPhysical pa)))
      ∧ (s.mapped pa = true →
      (loads → ¬ home → off ≤ 56 → l.filling = false → l.valid &&& m = m → c.inError pa = false →
        Gives (.ld d a h i) s ({ s with ticket := s.ticket + 1 }.setCore s.cur
            { c with l1 := mset {} c.l1 (pa / 64) { l with used := s.ticket + 1 } })
          d (BitVec.ofNat 64 (l.data.toNat / 2 ^ (8 * off) % 2 ^ 64)) 0 7)
      ∧ (loads → ¬ home → 56 < off → l.filling = false → l.valid &&& m1 = m1 → l2.filling = false → l2.valid &&& m2 = m2 →
        c.inError pa = false → Gives (.ld d a h i) s ({ s with ticket := s.ticket + 1 }.setCore s.cur
            { c with l1 := mset {} (mset {} c.l1 (pa / 64) { l with used := s.ticket + 1 }) (pa / 64 + 1) { l2 with used := s.ticket + 1 } })
          d (BitVec.ofNat 64 (l.data.toNat / 2 ^ (8 * off) % 2 ^ (8 * n) + l2.data.toNat % 2 ^ (8 * (8 - n)) * 2 ^ (8 * n))) 0 7)
      ∧ (loads → ¬ home → c.holds pa = true → c.inError pa = true → s.bk.inTrap = false →
        TrapsTo (.ld d a h i) s (s.memError pa) 0x14 va h.toNat false)
      ∧ (loads → ¬ home → c.holds pa = false → exec (.ld d a h i) s =
        .next (s.setSlot s.cur s.slot { s.me with wait := .load d pa va h.toNat, st := .run, readyAt := s.cycle + 8 }))
      ∧ (loads → home →
        let t := s.readAtHome pa 8 hd.rd
        (t.bad pa 8 = false → Gives (.ld d a h i) s t d (BitVec.ofNat 64 (t.numAt pa 8)) 0 8)
        ∧ (t.bad pa 8 = true → s.bk.inTrap = false → TrapsTo (.ld d a h i) s (t.memError pa) 0x14 va h.toNat false))
      ∧ (stores → ¬ home → ¬ dup →
        (∀ k, stored = some k → Completes (.st d a h i) s ({ s with ticket := s.ticket + 1 }.setCore s.cur k) 4)
        ∧ (stored = none → waits (.way (pa / 64)) .run))
      ∧ (stores → home → ¬ dup →
        let p : Posted := { unit := s.cur, slot := s.slot, dest := .line (pa / 64), addr := BitVec.ofNat 64 pa, bytes := leBytes 8 v }
        let p1 : Posted := { p with bytes := (leBytes 8 v).take n }
        let p2 : Posted := { p with dest := .line (pa / 64 + 1), addr := BitVec.ofNat 64 next, bytes := (leBytes 8 v).drop n }
        Completes (.st d a h i) s { s with posted := s.posted ++ (if off ≤ 56 then [p] else [p1, p2]) } 4)
      ∧ (stores → dup →
        let held := fun (ln : Nat) => mget 0 s.replicas ln ≠ 0 ∧ s.me.clearedLine ≠ some ln
        (held (pa / 64) → waits (.replica (pa / 64)) .wait)
        ∧ (¬ held (pa / 64) → 56 < off → held (pa / 64 + 1) → waits (.replica (pa / 64 + 1)) .wait)
        ∧ (¬ held (pa / 64) → off ≤ 56 ∨ ¬ held (pa / 64 + 1) →
          let u := ((s.atHome pa 8).perLine pa 8 (fun x a => x.dropOwnLine x.cur a)).linesPut pa (leBytes 8 v)
          Completes (.st d a h i) s u 8 ∧ u.numAt pa 8 = v)))

/-- Outside a handler and away from the end of local memory, LD and ST through handle h (ST through the one it was issued
with, where it has waited) with offset o raise the alignment trap (EVAL VBASE + o) if o is no multiple of 8, else the
revoked-handle trap (EVAL VBASE) if V = 0, else the bounds trap (EVAL o) if the 8 bytes are not inside the handle, and
ST else the write-protect trap (EVAL o) if W = 0; REG is h, WR is 1 for ST, and nothing else changes. (R22, R23, R165,
R167, R168, R230) -/
def Obligations.GlobalAccessTraps : Prop :=
  ∀ (s : State) (d a : GReg) (h : HReg) (i : BitVec 12), s.pc ≠ 0xFFFC → s.bk.inTrap = false →
    let o := (s.readG a).toInt + i.toInt
    let checks := fun (x : Instr) (wr : Bool) (hd : Handle) =>
      let traps := fun (code : Nat) (v : W64) => TrapsTo x s s code v h.toNat wr
      (o % 8 ≠ 0 → traps 0x06 (hd.vbase + BitVec.ofInt 64 o))
      ∧ (o % 8 = 0 → hd.v = false → traps 0x07 hd.vbase)
      ∧ (o % 8 = 0 → hd.v = true → o < 0 ∨ (hd.span.toNat : Int) < o + 8 → traps 0x08 (BitVec.ofInt 64 o))
      ∧ (o % 8 = 0 → hd.v = true → 0 ≤ o → o + 8 ≤ hd.span.toNat → wr = true → hd.w = false → traps 0x09 (BitVec.ofInt 64 o))
    checks (.ld d a h i) false (s.readH h)
    ∧ checks (.st d a h i) true (match s.me.latched with | some (.handle x) => x | _ => s.readH h)

/-- Away from the end of local memory: LL at an aligned offset inside the slot's own memory (ga + imm12 taken modulo 2^64,
log entry 92) gives the bytes there, extended, after the unit's earlier posted stores there, or the memory-error trap,
and SL posts the low bytes of gs; LM and SM with M = 1 do the same at a mesh address of this device that resolves, LM
also reading tile data, SM writing tile data of an OPEN buffer at once and trapping, with the buffer's current handle
in EVAL and field [25:21] in REG, at one that is not OPEN (log entry 23); at a mesh address of another device LM sends
its request and waits, SM to a local memory sends its write and goes on, SM into tile data sends it and waits, and
where no route leads there LM and SM into tile data trap and the posted SM is dropped and noted; an offset that is
misaligned or outside raises the mesh-address trap with the address in EVAL, and so does a formed mesh address that
does not resolve, or, with ga in EVAL, one whose OFFSET sum leaves 32 bits; WR is 1 for SM and SL; nothing else
changes. (R17, R18, R66, R67, R165, R232, R233, R234, R235, R379, R404, R498) -/
def Obligations.LocalAccess : Prop :=
  ∀ (s : State) (d a : GReg) (z : MemSize) (x : Bool) (i : BitVec 12), s.pc ≠ 0xFFFC →
    let n := z.bytes
    let ext := fun (v : Nat) => if x then BitVec.ofInt 64 (sfield (8 * n) v) else BitVec.ofNat 64 v
    let bs := leBytes n (s.readG d).toNat
    let ea := s.readG a + i.signExtend 64
    let size := if 1536 ≤ s.cur then 0x8000 else 0x10000
    let t := s.landFor s.cur (.localMem s.cur)
    let post := fun (u : Nat) (o : Nat) => { s with posted := s.posted ++
      [{ unit := s.cur, slot := s.slot, dest := .localMem u, addr := BitVec.ofNat 64 o, bytes := bs }] }
    (ea.toNat + n ≤ size → ea.toNat % n = 0 →
      (t.bad (ownBase s.cur + ea.toNat) n = false →
        Gives (.ll d a z x i) s t d (ext (t.numAt (ownBase s.cur + ea.toNat) n)) 0 6)
      ∧ (t.bad (ownBase s.cur + ea.toNat) n = true → s.bk.inTrap = false →
        TrapsTo (.ll d a z x i) s (t.memError (ownBase s.cur + ea.toNat)) 0x14 ea 0 false)
      ∧ Completes (.sl d a z i) s (post s.cur ea.toNat) 4)
    ∧ (size < ea.toNat + n ∨ ea.toNat % n ≠ 0 → s.bk.inTrap = false →
      TrapsTo (.ll d a z x i) s s 0x05 ea 0 false ∧ TrapsTo (.sl d a z i) s s 0x05 ea 0 true)
    ∧ (s.cur < 1536 → s.bk.inTrap = false →
      let off := ((s.readG a).toNat % 2 ^ 32 : Nat) + i.toInt
      let ma := BitVec.ofNat 64 ((s.readG a).toNat / 2 ^ 32 * 2 ^ 32 + off.toNat)
      let traps := fun (v : W64) => TrapsTo (.lm d a z x i) s s 0x05 v 0 false ∧ TrapsTo (.sm d a z i) s s 0x05 v 0 true
      (off < 0 ∨ 2 ^ 32 ≤ off → traps (s.readG a))
      ∧ (0 ≤ off → off < 2 ^ 32 → s.resolve s.cur ma n = none → traps ma))
    ∧ (s.cur < 1536 → ∀ p ma, p.dev = s.devNum →
      (s.meshPlace (s.readG a) i n false = .ok (p, ma) →
        let t := if p.tile then s else s.landFor s.cur (.localMem p.unit)
        (t.bad p.key n = false → Gives (.lm d a z x i) s t d (ext (t.numAt p.key n)) 0 (meshTrip (clusterOf s.cur) p.cl))
        ∧ (t.bad p.key n = true → s.bk.inTrap = false → TrapsTo (.lm d a z x i) s (t.memError p.key) 0x14 ma 0 false))
      ∧ (s.meshPlace (s.readG a) i n true = .ok (p, ma) →
        (p.tile = false → Completes (.sm d a z i) s (post p.unit p.off) 4)
        ∧ (p.tile = true → (s.buf p.cl p.buf).state = .open_ →
            Completes (.sm d a z i) s (s.put p.key bs) (tileTrip s.cur p.cl))
        ∧ (p.tile = true → (s.buf p.cl p.buf).state ≠ .open_ → s.bk.inTrap = false →
            TrapsTo (.sm d a z i) s s 0x0C ((s.handleOf p.cl p.buf).zeroExtend 64) d.toNat true)))
    ∧ (s.cur < 1536 → ∀ p ma, p.dev ≠ s.devNum →
      let sent := fun (q : RemoteRequest) => { s with outbox := s.outbox ++ [OutMsg.request p.dev q] }
      (s.meshPlace (s.readG a) i n false = .ok (p, ma) →
        (s.routeless p.dev = false → exec (.lm d a z x i) s = .next ((sent (.read s.devNum p.mesh false n)).setSlot s.cur s.slot
          { s.me with wait := .remote (.load d n x ma), st := .run, readyAt := s.cycle + 8 }))
        ∧ (s.routeless p.dev = true → s.bk.inTrap = false → TrapsTo (.lm d a z x i) s s 0x14 ma 0 false))
      ∧ (s.meshPlace (s.readG a) i n true = .ok (p, ma) → p.tile = true →
        (s.routeless p.dev = false → exec (.sm d a z i) s = .next ((sent (.write s.devNum p.mesh false 1 n 0 bs)).setSlot s.cur s.slot
          { s.me with wait := .remote (.store d ma), st := .run, readyAt := s.cycle + 8 }))
        ∧ (s.routeless p.dev = true → s.bk.inTrap = false → TrapsTo (.sm d a z i) s s 0x14 ma 0 true))
      ∧ (s.meshPlace (s.readG a) i n true = .ok (p, ma) → p.tile = false →
        (s.routeless p.dev = false → Completes (.sm d a z i) s { sent (.write s.devNum p.mesh false 1 n 0 bs) with
          posted := s.posted ++ [{ unit := s.cur, slot := s.slot, dest := .device p.dev p.unit, addr := p.mesh, bytes := bs }] } 4)
        ∧ (s.routeless p.dev = true →
          Completes (.sm d a z i) s (s.updMe (fun y => { y with linkDrop := some p.dev })) 4)))

/-- Away from the end of local memory, after an SL of n bytes at an aligned offset inside the slot's own memory, an LL of
the same size at the same offset, its PC not at the end and no granule there in error, completes with those n bytes,
zero-extended; every byte of that memory outside the stored ones is as if the store had not been made. (R7, R66, R67,
R233) -/
def Obligations.LocalReadAfterWrite : Prop :=
  ∀ (s t : State) (d r a : GReg) (z : MemSize) (i : BitVec 12), s.pc ≠ 0xFFFC → t.pc ≠ 0xFFFC →
    let n := z.bytes
    let ea := s.readG a + i.signExtend 64
    let u := t.landFor t.cur (.localMem t.cur)
    exec (.sl r a z i) s = .next t → ea.toNat % n = 0 → ea.toNat + n ≤ (if 1536 ≤ s.cur then 0x8000 else 0x10000) →
    u.bad (ownBase t.cur + ea.toNat) n = false →
    Gives (.ll d a z false i) t u d (BitVec.ofNat 64 ((s.readG r).toNat % 2 ^ (8 * n))) 0 6
    ∧ ∀ x, x < ownBase s.cur + ea.toNat ∨ ownBase s.cur + ea.toNat + n ≤ x →
      u.byteAt x = (s.landFor s.cur (.localMem s.cur)).byteAt x

/-- Away from the end of local memory, with an aligned address inside a live handle (writable unless LDA) on an address
that the device maps, with nothing for the release part to wait for, no replica of the datum's line and no granule in
error, each of the thirteen atomics finds the core's earlier posted stores on the line's path landed and its L1 copy
written back and dropped (so of both lines where an unaligned datum lies in two, log entry 75), writes what its
operation of R237 to R239 gives for the old value (CAS only if the old value is the expected one), gives gd the old
value zero-extended (STA gives none), carries clocks (an exchange with the home slice, log entry 17; a timestamp in
both for seq_cst, for LDA and STA too, log entry 14), performs the acquire of its order, and changes nothing else:
every byte outside the datum is as after the core's own earlier stores on that path. STA is performed at the home as
the others are (log entry 76). The handle is the one of the issue, where the instruction has waited (R23). (R23, R58,
R64, R65, R77, R237, R238, R239, R240) -/
def Obligations.AtomicsAtHome : Prop :=
  ∀ (s : State) (d a : GReg) (e : BitVec 4) (h : HReg) (r : Order) (c : Scope) (z : AtSize), s.pc ≠ 0xFFFC →
    let hd := match s.me.latched with | some (.handle x) => x | _ => s.readH h
    let o := (s.readG a).toInt
    let pa := hd.pbase.toNat + o.toNat
    let y := s.datum d z
    let e2 : GReg := BitVec.ofNat 5 (2 * e.toNat)
    let new := fun (w code old n m : Nat) =>
      if code = 1 ∨ code = 2 then some n
      else if code = 3 then (if old = n then some m else none)
      else if code = 4 then some ((old + n) % 2 ^ w)
      else if code = 5 then some (old &&& n)
      else if code = 6 then some (old ||| n)
      else if code = 7 then some (old ^^^ n)
      else if code = 8 then some (if sfield w old < sfield w n then old else n)
      else if code = 9 then some (if sfield w old < sfield w n then n else old)
      else if code = 10 then some (if old < n then old else n)
      else if code = 11 then some (if old < n then n else old)
      else if code = 12 then some (fpAdd 23 0 (fpOf old) (fpOf n)).1
      else none
    let go := fun (i : Instr) (z : AtSize) (code : Nat) (g : GReg) (n m : Nat) =>
      let t1 := s.perLine pa z.bytes State.ownLineFirst
      let old := t1.numAt pa z.bytes
      (∀ x, pa ≤ x → x < pa + z.bytes → mget 0 s.replicas (x / 64) = 0) →
      o % z.bytes = 0 → o + z.bytes ≤ hd.span.toNat → (code = 0 ∨ hd.w = true) → t1.bad pa z.bytes = false →
      let t2 := match new (8 * z.bytes) code old n m with
        | some v => t1.linesPut pa (leBytes z.bytes v)
        | none => t1.perLine pa z.bytes (fun x a => x.touchPool a false)
      let t3 := if r = .seqCst then t2.stamp s.cur (sliceKey pa) else t2.exchange s.cur (sliceKey pa)
      let acq := r = .acquire ∨ r = .acqRel ∨ r = .seqCst
      let t4 := if acq then t3.acquire s.cur s.slot c else t3
      let lat := 8 + if acq ∧ wideScope c = true ∧ s.cur < 1536 then 2 else 0
      (if code = 1 then Completes i s t4 lat else Gives i s t4 g (BitVec.ofNat 64 old) 0 lat)
      ∧ ∀ x, x < pa ∨ pa + z.bytes ≤ x → t4.byteAt x = t1.byteAt x
    hd.v = true → 0 ≤ o → s.mapped pa = true →
    (r = .relaxed ∨ r = .acquire ∨ Released s c) →
      go (.lda d a h r c z false) z 0 d y 0
      ∧ go (.sta d a h r c z false) z 1 d y 0 ∧ go (.amoswap d a h r c z false) z 2 d y 0
      ∧ go (.amocas e a h r c z false) z 3 e2 (s.datum e2 z) (s.datum (e2 + 1) z)
      ∧ go (.amoadd d a h r c z false) z 4 d y 0 ∧ go (.amoand d a h r c z false) z 5 d y 0
      ∧ go (.amoor d a h r c z false) z 6 d y 0 ∧ go (.amoxor d a h r c z false) z 7 d y 0
      ∧ go (.amomin d a h r c z false) z 8 d y 0 ∧ go (.amomax d a h r c z false) z 9 d y 0
      ∧ go (.amominu d a h r c z false) z 10 d y 0 ∧ go (.amomaxu d a h r c z false) z 11 d y 0
      ∧ go (.amofadd d a h r c false) .w 12 d (s.datum d .w) 0

/-- On a strand slot away from the end of local memory, with nothing for the release part to wait for, each of the
thirteen atomics at a mesh address of this device that resolves (for tile data of a buffer that is OPEN, or LDA of
any), with no granule in error, writes what its operation gives for the old value, gives gd the old value
zero-extended (STA gives none), performs the acquire of its order, advances the core's clock by one if it is seq_cst
(log entry 14), and changes nothing else: every byte outside the datum is as after the unit's own earlier posted
stores there. (R58, R64, R232, R235, R237, R240) -/
def Obligations.AtomicsByMesh : Prop :=
  ∀ (s : State) (d a : GReg) (e : BitVec 4) (h : HReg) (r : Order) (c : Scope) (z : AtSize) (p : Place) (ma : W64),
    s.pc ≠ 0xFFFC → s.cur < 1536 → p.dev = s.devNum →
    let y := s.datum d z
    let e2 : GReg := BitVec.ofNat 5 (2 * e.toNat)
    let t1 := if p.tile then s else s.landFor s.cur (.localMem p.unit)
    let new := fun (w code old n m : Nat) =>
      if code = 1 ∨ code = 2 then some n
      else if code = 3 then (if old = n then some m else none)
      else if code = 4 then some ((old + n) % 2 ^ w)
      else if code = 5 then some (old &&& n)
      else if code = 6 then some (old ||| n)
      else if code = 7 then some (old ^^^ n)
      else if code = 8 then some (if sfield w old < sfield w n then old else n)
      else if code = 9 then some (if sfield w old < sfield w n then n else old)
      else if code = 10 then some (if old < n then old else n)
      else if code = 11 then some (if old < n then n else old)
      else if code = 12 then some (fpAdd 23 0 (fpOf old) (fpOf n)).1
      else none
    let go := fun (i : Instr) (z : AtSize) (code : Nat) (g : GReg) (n m : Nat) =>
      let old := t1.numAt p.key z.bytes
      s.meshPlace (s.readG a) 0 z.bytes (code != 0) = .ok (p, ma) →
      (code = 0 ∨ p.tile = false ∨ (s.buf p.cl p.buf).state = .open_) → t1.bad p.key z.bytes = false →
      let t2 := match new (8 * z.bytes) code old n m with
        | some v => t1.put p.key (leBytes z.bytes v)
        | none => t1
      let t3 := if r = .seqCst then t2.setClock s.cur (t2.clockOf s.cur + 1) else t2
      let acq := r = .acquire ∨ r = .acqRel ∨ r = .seqCst
      let t4 := if acq then t3.acquire s.cur s.slot c else t3
      let lat := meshTrip (clusterOf s.cur) p.cl + if acq ∧ wideScope c = true then 2 else 0
      (if code = 1 then Completes i s t4 lat else Gives i s t4 g (BitVec.ofNat 64 old) 0 lat)
      ∧ ∀ x, x < p.key ∨ p.key + z.bytes ≤ x → t4.byteAt x = t1.byteAt x
    (r = .relaxed ∨ r = .acquire ∨ Released s c) →
      go (.lda d a h r c z true) z 0 d y 0
      ∧ go (.sta d a h r c z true) z 1 d y 0 ∧ go (.amoswap d a h r c z true) z 2 d y 0
      ∧ go (.amocas e a h r c z true) z 3 e2 (s.datum e2 z) (s.datum (e2 + 1) z)
      ∧ go (.amoadd d a h r c z true) z 4 d y 0 ∧ go (.amoand d a h r c z true) z 5 d y 0
      ∧ go (.amoor d a h r c z true) z 6 d y 0 ∧ go (.amoxor d a h r c z true) z 7 d y 0
      ∧ go (.amomin d a h r c z true) z 8 d y 0 ∧ go (.amomax d a h r c z true) z 9 d y 0
      ∧ go (.amominu d a h r c z true) z 10 d y 0 ∧ go (.amomaxu d a h r c z true) z 11 d y 0
      ∧ go (.amofadd d a h r c true) .w 12 d (s.datum d .w) 0

/-- Away from the end of local memory START, with nothing to release, takes the lowest FREE slot from 1 upward of its
core, whose bank 0 starts at ga[15:2] x 4 with g2 to g5, g30 and FPS of the caller, the caller's privilege and every
other register at reset, ready 8 cycles later, its acquire mark no older than the caller's or its own (log entry 96),
and gives its number; with none free it gives 0. SPAWN, with nothing to release at DEVICE scope, does so at the core
named if a task is bound to it whose part there has not ended, with gb to gb + 3 in g2 to g5 and the privilege of the
record; request and answer carry clocks. EXIT in bank 0, at 0xFFFC too, frees a helper's slot with its registers kept
(log entry 64), and in slot 0 of a strand core with every helper FREE ends the core's part; with a helper not FREE the
slot waits; the last slot of a lookup core that exits halts it. No other slot and no byte of memory changes. (R142,
R155, R157, R253, R254, R255, R264, R384) -/
def Obligations.Strands : Prop :=
  ∀ (s : State) (d a b : GReg),
    let args := fun (x : Bank) (v : Nat → W64) => (((x.writeG 2 (v 0)).writeG 3 (v 1)).writeG 4 (v 2)).writeG 5 (v 3)
    (s.pc ≠ 0xFFFC →
      (∀ j, s.freeSlot s.cur = some j →
        let x : Bank := (args { fps := s.bk.fps } (fun k => s.readG (BitVec.ofNat 5 (2 + k)))).writeG 30 (s.readG 30)
        let b0 : Bank := { x with pc := (s.readG a).truncate 16 &&& 0xFFFC, estat := if s.super then 1 else 0 }
        Released s .core → Gives (.start d a) s (s.setSlot s.cur j
          { st := .run, readyAt := s.cycle + 8, acqMark := max (s.slotOf s.cur j).acqMark s.me.acqMark, b0 := b0 }) d (BitVec.ofNat 64 j) 0 4)
      ∧ (s.freeSlot s.cur = none → Released s .core → Gives (.start d a) s s d 0 0 4)
      ∧ (s.cur < 1536 → ∀ p, s.resolve s.cur (s.readG a) 4 = some p → p.tile = false → p.dev = s.devNum → Released s .device →
        let lat := meshTrip (clusterOf s.cur) p.cl
        let part := fun (k : Nat) => (s.core p.unit).task = some k ∧ (s.core p.unit).ended = false
          ∧ ∀ t ∈ s.dist.bound, t.key = k → p.unit ∉ t.reported
        (∀ k j, part k → s.freeSlot p.unit = some j →
          let x : Bank := args {} (fun k => s.readG (b + BitVec.ofNat 5 k))
          let b0 : Bank := { x with pc := BitVec.ofNat 16 p.off, estat := if s.taskPriv p.unit then 1 else 0 }
          Gives (.spawn d a b) s (((s.setSlot p.unit j
            { st := .run, readyAt := s.cycle + 8, acqMark := (s.slotOf p.unit j).acqMark, b0 := b0 }).exchange s.cur p.unit).acquire
            p.unit j .device) d (BitVec.ofNat 64 j) 0 lat)
        ∧ (s.freeSlot p.unit = none ∨ (∀ k, ¬ part k) → Gives (.spawn d a b) s (s.exchange s.cur p.unit) d 0 0 lat)))
    ∧ (s.me.bank = false →
      let freed := fun (x : Slot) => { x with st := .free, wait := .none, fetch := [], drained := false, clearedLine := none, latched := none,
                                              bag := none, sparse := [], linkDrop := none }
      let gone := s.setSlot s.cur s.slot (freed s.me)
      (s.cur < 1536 → s.slot ≠ 0 → exec .exit s = .next gone)
      ∧ (s.cur < 1536 → s.slot = 0 → s.helpersFree s.cur = true → exec .exit s =
          .next (gone.updCore s.cur (fun c => { c with ended := true })))
      ∧ (s.cur < 1536 → s.slot = 0 → s.helpersFree s.cur = false →
          exec .exit s = .next (s.setSlot s.cur 0 { s.me with wait := .exit, st := .wait }))
      ∧ (1536 ≤ s.cur → exec .exit s = .next (gone.updCore s.cur (fun c =>
          if c.slots.all (fun e => decide (e.2.st = .free)) then { c with look := { c.look with run := false } } else c))))

/-- Away from the end of local memory: WAITQ with no earlier waiter takes the oldest entry of its queue, acquires at its
scope and gives its word, and otherwise parks the slot at the same PC with the next place among the waiters and
nothing else changed; POSTQ to a core of this device with nothing to release appends its word, at the narrowest scope
that contains both, and gives 1, or gives 0 when the queue holds 16, the answer with the clock in both cases; MSEND to
a core of the row with room appends the message and otherwise parks, to be ready no earlier than a mesh round trip
after its issue, and MRECV takes the oldest message of its tag that no earlier waiter matches, acquires and gives its
word, or parks; nothing else changes. An acquire wider than CORE takes 2 cycles more. (R58, R64, R256, R257, R259,
R260) -/
def Obligations.QueuesAndMessages : Prop :=
  ∀ (s : State) (d a b : GReg) (n : BitVec 2) (t : BitVec 6), s.pc ≠ 0xFFFC →
    let c := s.core s.cur
    let parks := fun (i : Instr) (w : Wait) => exec i s =
      .next { s.setSlot s.cur s.slot { s.me with wait := w, st := .wait } with ticket := s.ticket + 1 }
    let cost := fun (sc : Scope) => if wideScope sc = true ∧ s.cur < 1536 then 8 else 6
    (∀ e rest, mget [] c.eq n.toNat = e :: rest → (c.eqWaiters n.toNat).isEmpty = true →
      Gives (.waitq d n) s ((s.setCore s.cur { c with eq := mset [] c.eq n.toNat rest }).acquire s.cur s.slot e.scope) d e.word 0
        (cost e.scope))
    ∧ (mget [] c.eq n.toNat = [] ∨ (c.eqWaiters n.toNat).isEmpty = false → parks (.waitq d n) (.waitq d n.toNat (s.ticket + 1)))
    ∧ (∀ p, s.coreNamed (s.readG a) = some p → p.dev = s.devNum → Released s (between s.cur p.unit) →
      let q := mget [] (s.core p.unit).eq n.toNat
      let lat := if 1536 ≤ s.cur then 8 else meshTrip (clusterOf s.cur) p.cl
      (q.length < 16 → Gives (.postq d a b n) s
        ((s.updCore p.unit (fun x => { x with eq := mset [] x.eq n.toNat (q ++ [⟨s.readG b, between s.cur p.unit⟩]) })).exchange
          s.cur p.unit) d 1 0 lat)
      ∧ (16 ≤ q.length → Gives (.postq d a b n) s (s.exchange s.cur p.unit) d 0 0 lat)
      ∧ (s.cur < 1536 → rowOf p.cl = rowOf (clusterOf s.cur) →
        ((s.core p.unit).inbox.length < 16 →
          Completes (.msend a b t) s ((s.updCore p.unit (fun x => { x with
              inbox := x.inbox ++ [⟨s.readG b, t.toNat, s.cur, between s.cur p.unit⟩] })).exchange s.cur p.unit)
            (meshTrip (clusterOf s.cur) p.cl))
        ∧ (16 ≤ (s.core p.unit).inbox.length →
          exec (.msend a b t) s = .next { s.setSlot s.cur s.slot { s.me with
            wait := .msend p.unit t.toNat (s.readG b) (between s.cur p.unit) (s.ticket + 1), st := .wait
            readyAt := s.cycle + meshTrip (clusterOf s.cur) p.cl } with ticket := s.ticket + 1 })))
    ∧ (s.cur < 1536 → ∀ j m, c.recvPlace t.toNat (s.ticket + 1) = some j → c.inbox[j]? = some m →
        Gives (.mrecv d t) s ((s.setCore s.cur { c with inbox := c.inbox.eraseIdx j }).acquire s.cur s.slot m.scope) d m.word 0
          (cost m.scope))
    ∧ (s.cur < 1536 → c.recvPlace t.toNat (s.ticket + 1) = none → parks (.mrecv d t) (.mrecv d t.toNat (s.ticket + 1)))

/-- Away from the end of local memory, TASKDEC of a cell in a local memory of this device, with nothing to release and no
granule in error: a count of 0 changes nothing and gives all ones; a count above 1, or of 1 without the PARK bit, is
decremented in place and given; a count of 1 with the PARK bit leaves the whole cell 0, gives 0, and makes ready the
parked task of entry [45:34] if that entry is in use. Every byte outside the cell is as after the unit's earlier
posted stores there, and no other slot changes. (R258, R470, R471) -/
def Obligations.TaskCells : Prop :=
  ∀ (s : State) (d a : GReg) (p : Place), s.pc ≠ 0xFFFC → s.resolve s.cur (s.readG a) 8 = some p → p.tile = false →
    p.dev = s.devNum → Released s (between s.cur p.unit) →
    let t := s.landFor s.cur (.localMem p.unit)
    let v := t.numAt p.key 8
    let count := v % 2 ^ 32
    let park := v / 2 ^ 32 % 2 = 1
    let lat := if 1536 ≤ s.cur then 8 else meshTrip (clusterOf s.cur) p.cl
    t.bad p.key 8 = false →
    (count = 0 → Gives (.taskdec d a) s t d (BitVec.allOnes 64) 0 lat)
    ∧ (count ≠ 0 → ¬ (count = 1 ∧ park) →
        Gives (.taskdec d a) s (t.put p.key (leBytes 8 (v - 1))) d (BitVec.ofNat 64 (count - 1)) 0 lat)
    ∧ (count = 1 → park → ∃ u, Gives (.taskdec d a) s u d 0 0 lat ∧ u.numAt p.key 8 = 0
        ∧ (∀ x, x < p.key ∨ p.key + 8 ≤ x → u.byteAt x = t.byteAt x)
        ∧ u = { t.put p.key (leBytes 8 0) with dist := u.dist }
        ∧ u.dist.ready = t.dist.ready ++ (if t.dist.parked.any (fun e => e.1 == v / 2 ^ 34 % 2 ^ 12) then [v / 2 ^ 34 % 2 ^ 12] else []))

/-- On a strand slot away from the end of local memory, with a shape word within the limits of R26 and R129 and a 16-bit
timer: TOPEN makes the lowest-numbered FREE buffer of the issuing cluster OPEN with that shape, no valid row, the
press of the core's half of the cluster, its timer armed if it is not 0 and its generation kept, and gives its handle
with latency 8; with no FREE buffer it gives all ones; nothing else changes. A domain code above 1 raises trap 0x0F,
else a format code above 6 trap 0x10, outside a handler, with nothing changed. (R20, R24, R26, R28, R129, R246) -/
def Obligations.TileOpen : Prop :=
  ∀ (s : State) (d a b : GReg), s.cur < 1536 → s.pc ≠ 0xFFFC →
    let w := (s.readG a).toNat
    let timer := (s.readG b).toNat
    let fmt := w % 16
    let dom := w / 2 ^ 4 % 16
    let rows := w / 2 ^ 8 % 128
    let pitch := w / 2 ^ 16 % 512
    let cl := s.cur / 16
    let fits := w < 2 ^ 27 ∧ w / 2 ^ 15 % 2 = 0 ∧ 1 ≤ rows ∧ rows ≤ (if dom = 1 then 32 else 64) ∧ 1 ≤ pitch ∧ pitch ≤ 256
      ∧ rows * pitch ≤ 256
    (dom ≤ 1 → fmt ≤ 6 → fits → timer < 2 ^ 16 →
      (s.freeBuf cl = none → Gives (.topen d a b) s s d (BitVec.allOnes 64) 0 8)
      ∧ (∀ n, s.freeBuf cl = some n →
        let x : Buffer := { state := .open_, timed := decide (timer ≠ 0), haar := decide (dom = 1), gen := (s.buf cl n).gen }
        let y : Buffer := { x with fmt := BitVec.ofNat 4 fmt, queue := BitVec.ofNat 2 (w / 2 ^ 25), rows := rows, pitch := pitch,
                                   mu := if s.cur % 16 < 8 then 0 else 1, timer := BitVec.ofNat 16 timer,
                                   due := if timer = 0 then 0 else s.cycle + 64 * timer }
        (s.buf cl n).state = .free ∧ (∀ m, m < n → (s.buf cl m).state ≠ .free)
        ∧ Gives (.topen d a b) s (s.setBuf cl n y) d
            (BitVec.ofNat 64 (s.devNum * 2 ^ 24 + cl * 2 ^ 17 + n * 2 ^ 8 + (s.buf cl n).gen.toNat)) 0 8))
    ∧ (s.bk.inTrap = false → 1 < dom → TrapsTo (.topen d a b) s s 0x0F (BitVec.ofNat 64 (w % 2 ^ 32)) d.toNat false)
    ∧ (s.bk.inTrap = false → dom ≤ 1 → 6 < fmt → TrapsTo (.topen d a b) s s 0x10 (BitVec.ofNat 64 fmt) 0 false)

/-- On a strand slot away from the end of local memory, with a tile address of right layout whose handle is current and
whose buffer is OPEN: TWR stores 2, 4 or 8 bytes of gb at the byte offset of the row, zeroing the row first if it was
not valid, and makes the row valid; TPOS sets the position of the row (row 0 only, a multiple of 32, in a Haar tile);
TRMAP sets the row map of a Haar tile; TMASK.OR, TMASK.CLR and TMASK.SET change the mask within ROWS, zeroing rows
newly valid. Every other buffer, every other field and every other byte keeps its value. (R25, R27, R29, R243, R244,
R245, R247) -/
def Obligations.TileWrites : Prop :=
  ∀ (s : State) (a b : GReg), s.cur < 1536 → s.pc ≠ 0xFFFC →
    let w := (s.readG a).toNat
    let r := tileRef ((s.readG a).truncate 32)
    let x := s.buf r.cl r.b
    let lat := if s.cur / 16 = r.cl then 4 else meshTrip (s.cur / 16) r.cl
    let off := w / 2 ^ 32 % 2 ^ 16
    let row := w / 2 ^ 48 % 2 ^ 6
    let v := s.readG b
    let start := padBase r.cl + r.b * 16384 + row * 64 * x.pitch
    let stores := fun (i : Instr) (n : Nat) => off % n = 0 → off + n ≤ 64 * x.pitch →
      Completes i s (((if x.vmask.getLsbD row then s else s.zero start (64 * x.pitch)).put (start + off) (leBytes n v.toNat)).setBuf
        r.cl r.b { x with vmask := x.vmask ||| (1#64 <<< row) }) lat
    let masks := fun (i : Instr) (m : BitVec 64) => (∀ j, m.getLsbD j = true → j < x.rows) →
      ∃ u : State, Completes i s (u.setBuf r.cl r.b { x with vmask := m }) lat
        ∧ u = { s with mem := u.mem, poison := u.poison }
        ∧ ∀ k, let new := ∃ j, m.getLsbD j = true ∧ x.vmask.getLsbD j = false
              ∧ padBase r.cl + r.b * 16384 + j * 64 * x.pitch ≤ k ∧ k < padBase r.cl + r.b * 16384 + (j + 1) * 64 * x.pitch
            (new → u.byteAt k = 0) ∧ (¬ new → u.byteAt k = s.byteAt k)
    r.dev = s.devNum → r.cl ≤ 95 → r.b ≤ 383 → x.gen = r.gen → x.state = .open_ →
    (w < 2 ^ 54 → row < x.rows →
      stores (.twrH a b) 2 ∧ stores (.twrW a b) 4 ∧ stores (.twrD a b) 8
      ∧ (off = 0 → v.toNat < 2 ^ 24 → (x.haar = true → v.toNat % 32 = 0 ∧ row = 0) →
          Completes (.tpos a b) s (s.setBuf r.cl r.b { x with pos := mset 0 x.pos row (v.truncate 24) }) lat)
      ∧ (off = 0 → x.haar = true → v.toNat < 32 →
          Completes (.trmap a b) s (s.setBuf r.cl r.b { x with rmap := mset 0 x.rmap row (v.truncate 5) }) lat))
    ∧ (w < 2 ^ 32 → masks (.tmaskOr a b) (x.vmask ||| v) ∧ masks (.tmaskClr a b) (x.vmask &&& ~~~v) ∧ masks (.tmaskSet a b) v)

/-- On a strand slot away from the end of local memory: TDROP of a current handle of an OPEN buffer makes it FREE with its
generation advanced by one and returns a permit on it; TSTAT of a handle of this device gives the control word of R26
or the mask of the buffer whatever its generation, with an acquire at the scope named if asked (2 cycles more if it is
wider than CORE); TCNT gives ECNT or RCNT of the issuing cluster as increments of earlier cycles have left it and, at
SUPER, clears it if asked. Nothing else changes. That a freed tile has TIMED 0 is the model's reading (log entry 43).
(R26, R28, R35, R64, R245, R247, R248, R249) -/
def Obligations.TileControl : Prop :=
  ∀ (s : State) (d a : GReg) (sel : BitVec 5) (n : BitVec 1), s.cur < 1536 → s.pc ≠ 0xFFFC →
    let r := tileRef ((s.readG a).truncate 32)
    let x := s.buf r.cl r.b
    let lat := if s.cur / 16 = r.cl then 4 else meshTrip (s.cur / 16) r.cl
    let c := (s.cluster (s.cur / 16)).counted s.cycle
    let count := if n = 0 then c.ecnt else c.rcnt
    let sc : Scope := match sel.toNat / 4 with
      | 0 => .strand | 1 => .core | 2 => .cluster | 3 => .stack | 4 => .device | _ => .domain
    ((s.readG a).toNat < 2 ^ 32 → r.dev = s.devNum → r.cl ≤ 95 → r.b ≤ 383 →
      (x.gen = r.gen → x.state = .open_ →
        Completes (.tdrop a) s (s.freeTile r.cl r.b) lat
        ∧ (s.freeTile r.cl r.b).buf r.cl r.b = { x with state := .free, timed := false, gen := x.gen + 1, holder := none, ticket := 0 }
        ∧ (∀ j, j ≠ r.b → (s.freeTile r.cl r.b).buf r.cl j = s.buf r.cl j)
        ∧ ∀ j, j ≠ r.cl → (s.freeTile r.cl r.b).cluster j = s.cluster j)
      ∧ Gives (.tstat d a sel) s (if sel.getLsbD 1 then s.acquire s.cur s.slot sc else s) d
          (if sel.getLsbD 0 then x.vmask else BitVec.ofNat 64 (x.low s.cycle)) 0
          (if sel.getLsbD 1 = true ∧ wideScope sc = true then lat + 2 else lat))
    ∧ Gives (.tcnt d false n) s s d (count.zeroExtend 64) 0 4
    ∧ (s.super = true → Gives (.tcnt d true n) s
        (s.setCluster (s.cur / 16) (if n = 0 then { c with ecnt := 0 } else { c with rcnt := 0 })) d (count.zeroExtend 64) 0 4)

/-- On a strand slot away from the end of local memory, with a current handle and nothing to release: SEAL of a buffer
already SEALED, QUEUED or HELD gives 1; of an OPEN one with no valid row frees it with GEN + 1, counts it in ECNT and
gives 2; of one with valid rows (whose row maps differ in a Haar tile) puts its handle at the end of its queue, makes
it QUEUED and gives 0 if the queue has a place and nothing waits for it; otherwise the buffer is SEALED and the slot
waits. Two valid rows with one RMAP value raise the domain trap outside a handler. TIMED 0 of a sealed or freed tile
is log entry 43, REG and WR of the traps log entry 42. (R28, R32, R33, R35, R38, R250, R251) -/
def Obligations.TileSeal : Prop :=
  ∀ (s : State) (d a : GReg), s.cur < 1536 → s.pc ≠ 0xFFFC →
    let r := tileRef ((s.readG a).truncate 32)
    let x := s.buf r.cl r.b
    let lat := if s.cur / 16 = r.cl then 4 else meshTrip (s.cur / 16) r.cl
    let q := (s.pressAt (2 * r.cl + x.mu.toNat)).queueOf x.queue.toNat
    let ready := q.length < 16 ∧ s.queueTickets r.cl x.mu.toNat x.queue.toNat = []
    (s.readG a).toNat < 2 ^ 32 → r.dev = s.devNum → r.cl ≤ 95 → r.b ≤ 383 → x.gen = r.gen →
    Released s (if s.cur / 16 = r.cl then .cluster else .device) →
    (x.state = .sealed ∨ x.state = .queued ∨ x.state = .held → Gives (.seal d a) s s d 1 0 lat)
    ∧ (x.state = .free → s.bk.inTrap = false → TrapsTo (.seal d a) s s 0x0B (((s.readG a).truncate 32).zeroExtend 64) d.toNat false)
    ∧ (x.state = .open_ → x.sharesRmap = true → s.bk.inTrap = false →
        TrapsTo (.seal d a) s s 0x0F (((s.readG a).truncate 32).zeroExtend 64) d.toNat false)
    ∧ (x.state = .open_ → x.sharesRmap = false → x.vmask = 0 →
        Gives (.seal d a) s ((s.freeTile r.cl r.b).countEmpty r.cl) d 2 0 lat
        ∧ (((s.freeTile r.cl r.b).countEmpty r.cl).buf r.cl r.b).gen = x.gen + 1
        ∧ (((s.freeTile r.cl r.b).countEmpty r.cl).buf r.cl r.b).state = .free)
    ∧ (x.state = .open_ → x.sharesRmap = false → x.vmask ≠ 0 → ready →
        ∃ u, Gives (.seal d a) s u d 0 0 lat ∧ (u.buf r.cl r.b) = { x with state := .queued, timed := false, ticket := 0 }
          ∧ (u.pressAt (2 * r.cl + x.mu.toNat)).queueOf x.queue.toNat = q ++ [(s.handleOf r.cl r.b, false)]
          ∧ u.mem = s.mem ∧ u.cores = s.cores ∧ ∀ j, j ≠ r.b → u.buf r.cl j = s.buf r.cl j)
    ∧ (x.state = .open_ → x.sharesRmap = false → x.vmask ≠ 0 → ¬ ready →
        ∃ t, exec (.seal d a) s = .next t ∧ t.me.wait = .posting d r.cl r.b ∧ t.me.st = .wait ∧ t.bk = s.bk
          ∧ (t.buf r.cl r.b).state = .sealed ∧ t.presses = s.presses ∧ t.mem = s.mem)

/-- On a strand slot outside a handler and away from the end of local memory, each TWR, TPOS and TRMAP refuses its address
operand in this order: bits [63:54] not zero (for TPOS and TRMAP also an offset), the engine-command trap; a handle of
another device or out of range, trap 0x0A; another generation, 0x0B; a buffer that is not OPEN, 0x0C; a row not below
ROWS or, for TWR, a misaligned or outlying offset, 0x0D with the row and offset in EVAL. TPOS then refuses a position
of more than 24 bits, or in a Haar tile one that is no multiple of 32, with 0x0E, and a row other than 0 of a Haar
tile with 0x0F; TRMAP a tile that is no Haar tile with 0x0F and a value above 31 with 0x11. TMASK, TDROP, TSTAT and
SEAL refuse their handle operand: bits [63:32] not zero, 0x11; 0x0A; 0x0B (not TSTAT); TMASK and TDROP a buffer that
is not OPEN, 0x0C; TMASK a mask bit at or above ROWS, 0x0D with the lowest such row. REG is the gd field of TSTAT and
SEAL; that WR is set for those that write tile data, metadata or the mask is log entry 42. Nothing but trap entry
happens. (R25, R27, R29, R165, R167, R168, R244, R245, R247, R248, R250) -/
def Obligations.TileTraps : Prop :=
  ∀ (s : State) (d a b : GReg) (sel : BitVec 5), s.cur < 1536 → s.pc ≠ 0xFFFC → s.bk.inTrap = false →
    let w := (s.readG a).toNat
    let h : W64 := BitVec.ofNat 64 (w % 2 ^ 32)
    let r := tileRef ((s.readG a).truncate 32)
    let x := s.buf r.cl r.b
    let off := w / 2 ^ 32 % 2 ^ 16
    let row := w / 2 ^ 48 % 2 ^ 6
    let v := s.readG b
    let own := r.dev = s.devNum ∧ r.cl ≤ 95 ∧ r.b ≤ 383
    let word := s.word.zeroExtend 64
    (∀ (i : Instr) (n : Nat), (i, n) ∈ [(Instr.twrH a b, 2), (Instr.twrW a b, 4), (Instr.twrD a b, 8), (Instr.tpos a b, 0), (Instr.trmap a b, 0)] →
      let layout := w < 2 ^ 54 ∧ (n = 0 → off = 0)
      (¬ layout → TrapsTo i s s 0x11 word 0 false)
      ∧ (layout → ¬ own → TrapsTo i s s 0x0A h 0 true)
      ∧ (layout → own → x.gen ≠ r.gen → TrapsTo i s s 0x0B h 0 true)
      ∧ (layout → own → x.gen = r.gen → x.state ≠ .open_ → TrapsTo i s s 0x0C h 0 true)
      ∧ (layout → own → x.gen = r.gen → x.state = .open_ → x.rows ≤ row ∨ (0 < n ∧ (off % n ≠ 0 ∨ 64 * x.pitch < off + n)) →
        TrapsTo i s s 0x0D (BitVec.ofNat 64 (row + off * 2 ^ 16)) 0 true))
    ∧ (w < 2 ^ 54 → off = 0 → own → x.gen = r.gen → x.state = .open_ → row < x.rows →
      (2 ^ 24 ≤ v.toNat ∨ (x.haar = true ∧ v.toNat % 32 ≠ 0) → TrapsTo (.tpos a b) s s 0x0E v 0 true)
      ∧ (v.toNat < 2 ^ 24 → x.haar = true → v.toNat % 32 = 0 → row ≠ 0 → TrapsTo (.tpos a b) s s 0x0F h 0 true)
      ∧ (x.haar = false → TrapsTo (.trmap a b) s s 0x0F h 0 true)
      ∧ (x.haar = true → 32 ≤ v.toNat → TrapsTo (.trmap a b) s s 0x11 word 0 false))
    ∧ (∀ (i : Instr) (g : Nat) (wr stale : Bool), (i, g, wr, stale) ∈ [(Instr.tmaskOr a b, 0, true, true), (Instr.tmaskClr a b, 0, true, true),
        (Instr.tmaskSet a b, 0, true, true), (Instr.tdrop a, 0, false, true), (Instr.tstat d a sel, d.toNat, false, false),
        (Instr.seal d a, d.toNat, false, true)] →
      (2 ^ 32 ≤ w → TrapsTo i s s 0x11 word 0 false)
      ∧ (w < 2 ^ 32 → ¬ own → TrapsTo i s s 0x0A h g wr)
      ∧ (w < 2 ^ 32 → own → x.gen ≠ r.gen → stale = true → TrapsTo i s s 0x0B h g wr))
    ∧ (w < 2 ^ 32 → own → x.gen = r.gen →
      (x.state ≠ .open_ → TrapsTo (.tdrop a) s s 0x0C h 0 false)
      ∧ ∀ (i : Instr) (m : BitVec 64), (i, m) ∈ [(Instr.tmaskOr a b, x.vmask ||| v), (Instr.tmaskClr a b, x.vmask &&& ~~~v), (Instr.tmaskSet a b, v)] →
        (x.state ≠ .open_ → TrapsTo i s s 0x0C h 0 true)
        ∧ (x.state = .open_ → ∀ k, m.getLsbD k = true → x.rows ≤ k → (∀ j, j < k → m.getLsbD j = true → j < x.rows) →
          TrapsTo i s s 0x0D (BitVec.ofNat 64 k) 0 true))

/-- On a strand slot away from the end of local memory: CPY.SETR writes one register of one channel; CPY.GETR gives a
register, WP for number 7 with an acquire at CLUSTER scope; CPY.DFREE of a descriptor that no queued command and no
running image names frees it and gives 0, of one that is named gives 5 and changes nothing; CPY.DESC of a record in
local memory gives 0 and creates the descriptor, or a status and creates none, 5 if the descriptor is valid already,
its slot in WAIT for the 16 or 16 + 48n cycles; a record in error raises the memory-error trap; a descriptor number
above 63 or a record out of place raises the engine-command trap outside a handler. Nothing else changes but what the
page walks report (log entry 7). The trap for a record in error is log entry 49, the 16 cycles of every failure log
entry 68, a descriptor with V = 0 log entry 71, a range past 2^57 log entry 36. (R270, R272, R273, R275, R276) -/
def Obligations.CopyRegisters : Prop :=
  ∀ (s : State) (d a b : GReg) (c n : BitVec 3), s.cur < 1536 → s.pc ≠ 0xFFFC →
    let cl := s.cur / 16
    let x := s.chan cl c.toNat
    let k := (s.readG a).toNat
    let m := (s.readG b).toNat
    let u := s.cluster cl
    let busy := u.chans.any (fun e => e.2.queue.any (fun q => q.names k)) = true ∨ s.imageNames cl k = true
    Completes (.cpySetr a c n) s (s.setChan cl c.toNat { x with regs := mset 0 x.regs n.toNat (s.readG a) }) 4
    ∧ (n ≠ 7 → Gives (.cpyGetr d c n) s s d (mget 0 x.regs n.toNat) 0 4)
    ∧ Gives (.cpyGetr d c 7) s (s.acquire s.cur s.slot .cluster) d (x.wp.zeroExtend 64) 0 6
    ∧ (k ≤ 63 → busy → Gives (.cpyDfree d a) s s d 5 0 4)
    ∧ (k ≤ 63 → ¬ busy → Gives (.cpyDfree d a) s (s.setCluster cl { u with descs := merase u.descs k }) d 0 0 4)
    ∧ (63 < k → s.bk.inTrap = false → TrapsTo (.cpyDfree d a) s s 0x11 (s.word.zeroExtend 64) 0 false)
    ∧ (k % 64 ≠ 0 ∨ 0x10000 ≤ k ∨ 63 < m → s.bk.inTrap = false → TrapsTo (.cpyDesc d a b) s s 0x11 (s.word.zeroExtend 64) 0 false)
    ∧ (k % 64 = 0 → k < 0x10000 → m ≤ 63 →
      let t := s.landFor s.cur (.localMem s.cur)
      let rec_ := t.numAt (localBase s.cur + k) 64
      let r := t.makeDesc rec_ m
      let walked := t.afterWalks r [(rec_ % 2 ^ 57, 4096 * (rec_ / 2 ^ 64 % 2 ^ 32))]
      (t.bad (localBase s.cur + k) 64 = true → s.bk.inTrap = false →
        TrapsTo (.cpyDesc d a b) s (t.memError (localBase s.cur + k)) 0x14 (BitVec.ofNat 64 k) 0 false)
      ∧ (t.bad (localBase s.cur + k) 64 = false →
        (∀ e, r = .error e → GivesWaiting (.cpyDesc d a b) s walked d (BitVec.ofNat 64 e) 16)
        ∧ (∀ y, (t.cluster cl).desc m = some y → y.valid = true → r = .error 5)
        ∧ (∀ y, r = .ok y → ∃ v, GivesWaiting (.cpyDesc d a b) s (walked.setCluster cl v) d 0 (16 + 48 * y.pages.length)
            ∧ v = { t.cluster cl with descs := v.descs } ∧ v.desc m = some y
            ∧ ∀ j, j ≠ m → v.desc j = (t.cluster cl).desc j)))

/-- On a strand slot away from the end of local memory, for CPY.LIN, CPY.TEN, CPY.TILE, CPY.WBLK, CPY.RBLK, CPY.KVG,
CPY.PGIN and CPY.PGOUT with what their own rules latch at issue, or what the command has latched before a wait: if the
registers pass, with fewer than 4 commands queued and nothing to release, the command stands last in the queue with
the latched registers and the next SEQ, and gd takes that SEQ (CPY.TILE with open gives the handle of the buffer it
opens, or all ones and queues nothing); with 4 queued the slot waits and keeps what it latched; a command whose
registers do not pass raises the engine-command trap outside a handler and changes nothing else, one whose ring shape
or shape word has a format code above 6 the format trap, a domain code above 1 the domain trap. (Alignment of mesh
sides: log entry 93; strides: log entry 94.) (R87, R246, R270, R271, R274, R277, R278, R279, R282, R283, R284, R286) -/
def Obligations.CopyIssue : Prop :=
  ∀ (s : State) (d a b : GReg) (e p : Bool) (c : BitVec 3), s.cur < 1536 → s.pc ≠ 0xFFFC →
    let cl := s.cur / 16
    let x := s.chan cl c.toNat
    let r := tileRef ((mget 0 x.regs 1).truncate 32)
    let own := r.dev = s.devNum ∧ r.cl = cl ∧ r.cl ≤ 95 ∧ r.b ≤ 383
    let buf := s.buf r.cl r.b
    let ring := (mget 0 x.regs 4).toNat % 16
    let asked := fun (l : Option Latched) => match s.me.latched with
      | some (.command regs src dst wide) => some (({ src := src, dst := dst, global := wide } : Latched), regs)
      | _ => if s.cwOk (x.reg 6) = true then l.map (fun y => (y, x.regs)) else none
    let cmd := fun (t : State) (fn : Nat) (l : Latched) (opnd : W64) (drop sl : Bool) (regs : Map W64) =>
      t.setChan cl c.toNat { x with seq := x.seq + 1, queue := x.queue ++
        [{ fn := fn, seq := (x.seq + 1).toNat, unit := s.cur, task := (s.core s.cur).task, regs := regs, opnd := opnd,
           drop := drop, sealed := sl, src := l.src, dst := l.dst }] }
    let waits := fun (i : Instr) (y : Latched) (regs : Map W64) => 4 ≤ x.queue.length →
      exec i s = .next (s.setSlot s.cur s.slot
        { s.me with wait := .queue, st := .wait, latched := some (.command regs y.src y.dst y.global) })
    let traps := fun (i : Instr) => s.bk.inTrap = false → TrapsTo i s s 0x11 (s.word.zeroExtend 64) 0 false
    let go := fun (i : Instr) (fn : Nat) (l : Option Latched) (opnd : W64) (drop sl : Bool) =>
      (∀ y regs, asked l = some (y, regs) → x.queue.length < 4 → Released s (if y.global then .device else .cluster) →
        Gives i s (cmd s fn y opnd drop sl regs) d ((x.seq + 1).zeroExtend 64) 0 4)
      ∧ (∀ y regs, asked l = some (y, regs) → waits i y regs)
      ∧ (asked l = none → traps i)
    go (.cpyLin d c) 0x12 (s.latchLin x) 0 false false
    ∧ go (.cpyTen d c) 0x13 (s.latchTen x) 0 false false
    ∧ go (.cpyTile d a b e false c) 0x14 (if own then s.latchTile x buf.rows buf.pitch else none) 0 false e
    ∧ go (.cpyWblk d a p c) 0x15 (s.latchWblk x (s.readG a)) (s.readG a) p false
    ∧ (ring ≤ 6 ∨ s.resumed = true → go (.cpyRblk d c) 0x16 (s.latchRblk x) 0 false false)
    ∧ (6 < ring → s.resumed = false → s.bk.inTrap = false → TrapsTo (.cpyRblk d c) s s 0x10 (BitVec.ofNat 64 ring) 0 false)
    ∧ go (.cpyKvg d c) 0x17 (s.latchKvg x) 0 false false
    ∧ go (.cpyPgin d a c) 0x18 (s.latchMove x (s.readG a)) (s.readG a) false false
    ∧ go (.cpyPgout d a c) 0x19 (s.latchMove x (s.readG a)) (s.readG a) false false
    ∧ (let w := (s.readG a).toNat
       let sh := shapeOf w
       let timer := (s.readG b).toNat
       let l := if w < 2 ^ 32 ∧ timer < 2 ^ 16 ∧ sh.fits = true then s.latchTile x sh.rows sh.pitch else none
       let i := Instr.cpyTile d a b e true c
       (1 < sh.dom → s.bk.inTrap = false → TrapsTo i s s 0x0F (BitVec.ofNat 64 (w % 2 ^ 32)) d.toNat false)
       ∧ (sh.dom ≤ 1 → 6 < sh.fmt → s.bk.inTrap = false → TrapsTo i s s 0x10 (BitVec.ofNat 64 sh.fmt) 0 false)
       ∧ (sh.dom ≤ 1 → sh.fmt ≤ 6 →
         (asked l = none → traps i)
         ∧ ∀ y regs, asked l = some (y, regs) →
           waits i y regs
           ∧ (x.queue.length < 4 → Released s (if y.global then .device else .cluster) →
             (s.freeBuf cl = none → Gives i s s d (BitVec.allOnes 64) 0 8)
             ∧ ∀ n, s.freeBuf cl = some n →
               let u := s.openTile cl n sh (if nb (mget 0 regs 4).toNat 25 then 1 else 0) (BitVec.ofNat 16 timer)
               let h := mkHandle s.devNum cl n (s.buf cl n).gen
               Gives i s (cmd u 0x14 y 0 false e
                 (mset 0 regs 1 (BitVec.ofNat 64 ((mget 0 regs 1).toNat / 2 ^ 32 * 2 ^ 32 + h.toNat)))) d (h.zeroExtend 64) 0 8)))

/-- On a strand slot away from the end of local memory, CPY.ABORT removes every queued command that has not started and
writes its completion word with status 5 and COUNT 0; a started one that has not ended, is no move and is not already
stopping ends with status 5 and its COUNT, or, with its destination off a 64-byte boundary, is marked to stop at the
next one; moves under way and ended commands stay as they are; gd takes the number of commands that it ends. Slots
that wait for a queue entry try again; nothing else changes: the other channels, the presses, the tiles' control words
and every local register but gd keep their values. (R274, R287, R289) -/
def Obligations.CopyAbort : Prop :=
  ∀ (s : State) (d : GReg) (c : BitVec 3), s.cur < 1536 → s.pc ≠ 0xFFFC →
    let cl := s.cur / 16
    let x := s.chan cl c.toNat
    let waiting := x.queue.filter (fun k => decide (k.phase = .queued))
    let started := x.queue.filter (fun k => decide (k.phase ≠ .queued))
    let move := fun (k : CopyCmd) => k.fn = 0x18 ∨ k.fn = 0x19
    let stops := fun (k : CopyCmd) => decide (k.phase ≠ .queued ∧ k.phase ≠ .ended ∧ ¬ move k ∧ k.aborting = false)
    let marked := fun (k : CopyCmd) => if stops k then
        (if s.atBoundary k = true
          then { k with phase := .ended, status := 5, count := k.stopCount x.wp.toNat, pins := [], noted := [] }
          else { k with aborting := true })
      else k
    let words := fun (t : State) (k : CopyCmd) => t.putCw k.unit (k.reg 6) (5 + c.toNat * 2 ^ 8 + k.seq % 2 ^ 16 * 2 ^ 16)
    let u := waiting.foldl words (s.setChan cl c.toNat { x with queue := started.map marked })
    Gives (.cpyAbort d c) s u.wakeQueues d (BitVec.ofNat 64 (waiting.length + (started.filter stops).length)) 0 4
    ∧ u = { s.setChan cl c.toNat { x with queue := started.map marked } with mem := u.mem, poison := u.poison }
    ∧ (∀ j, j ≠ c.toNat → u.chan cl j = s.chan cl j) ∧ (u.cluster cl).bufs = (s.cluster cl).bufs
    ∧ (∀ j, j ≠ cl → u.cluster j = s.cluster j) ∧ u.presses = s.presses ∧ u.splice = s.splice
    ∧ (u.wakeQueues = { u with cores := u.wakeQueues.cores })
    ∧ ∀ v i, u.wakeQueues.slotOf v i = if (s.slotOf v i).wait = .queue then { s.slotOf v i with wait := .none, st := .run }
        else s.slotOf v i

/-- On a strand slot away from the end of local memory, for press u of the slot's cluster: MU.GETR gives the control
register named (0, 1 and 15 with an acquire at CLUSTER scope, 2 cycles more: log entry 78), among them the PC, FCAUSE,
FPC, PFS, AMAX, SATC, the thresholds, EVT, CYC and the drop counters; of a press that does not run and is not busy,
MU.SETR clears the bits of PFS that are written 1 and writes AMAX, SATC, a threshold, a valid EVT, a drop counter,
NFMT (a reserved code keeps its field, and a pending S-slot write keeps its count) or ROT (a rotation at or above the
region keeps RRB), MU.GETS gives and MU.SETS writes a scalar; of a running press MU.SETR leaves PFS, AMAX and SATC to
its next boundary. A register number or state that R316 excludes, or an EVT that breaks its form, raises the
engine-command trap outside a handler. Request and answer carry clocks; nothing else changes. (R58, R64, R98, R101,
R294, R301, R313, R316, R317, R318) -/
def Obligations.PressRegisters : Prop :=
  ∀ (s : State) (d a b : GReg) (u : BitVec 1), s.cur < 1536 → s.pc ≠ 0xFFFC →
    let p := 2 * (s.cur / 16) + u.toNat
    let x := s.pressAt p
    let n := (s.readG a).toNat
    let v := s.readG b
    let v32 : W32 := v.truncate 32
    let sees := fun (w : W64) => Gives (.muGetr d a u) s
      (if n = 0 ∨ n = 1 ∨ n = 15 then (s.exchange s.cur (1664 + p)).acquire s.cur s.slot .cluster else s.exchange s.cur (1664 + p)) d w 0
      (if n = 0 ∨ n = 1 ∨ n = 15 then 10 else 8)
    let puts := fun (y : Press) => Completes (.muSetr a b u) s ((s.setPress p y).exchange s.cur (1664 + p)) 8
    let runs := x.st = .run ∨ x.st = .stopping
    let traps := fun (i : Instr) => s.bk.inTrap = false → TrapsTo i s s 0x11 (s.word.zeroExtend 64) 0 false
    (n ≤ 27 → sees (BitVec.ofNat 64 (x.readReg n)))
    ∧ (n = 1 → sees (BitVec.ofNat 64 (x.pc % 0x10000))) ∧ (n = 2 → sees (x.fcause.zeroExtend 64))
    ∧ (n = 3 → sees (x.fpc.zeroExtend 64)) ∧ (n = 5 → sees (x.pfs.zeroExtend 64)) ∧ (n = 6 → sees (x.amax.zeroExtend 64))
    ∧ (n = 7 → sees (x.satc.zeroExtend 64)) ∧ (8 ≤ n → n ≤ 12 → sees ((mget 0 x.th (n - 7)).zeroExtend 64))
    ∧ (n = 14 → sees x.evt) ∧ (n = 15 → sees x.cyc)
    ∧ (16 ≤ n → n ≤ 23 → sees ((mget 0 x.dropc (n - 16)).zeroExtend 64))
    ∧ (27 < n → traps (.muGetr d a u))
    ∧ (x.isBusy s.cycle = false → ¬ runs →
        (n = 5 → puts { x with pfs := x.pfs &&& ~~~v32 })
        ∧ (n = 4 → puts { x with nfmt := BitVec.ofNat 32 (nfmtWrite (x.nfmtAt x.bundles) v.toNat),
                                 nfmtPend := x.nfmtPend.filter (fun e => decide (x.bundles < e.2)) })
        ∧ (n = 13 → let size := if v.toNat % 4 = 0 then 0 else 4 * 2 ^ (v.toNat % 4)
            puts { x with rsize := BitVec.ofNat 2 (v.toNat % 4),
                          rrb := if v.toNat / 2 ^ 8 % 32 < size then BitVec.ofNat 5 (v.toNat / 2 ^ 8 % 32) else x.rrb })
        ∧ (n = 6 → puts { x with amax := v32 }) ∧ (n = 7 → puts { x with satc := v32 })
        ∧ (8 ≤ n → n ≤ 12 → puts { x with th := mset 0 x.th (n - 7) v32 })
        ∧ (n = 14 → s.evtOk v.toNat = true → puts { x with evt := v })
        ∧ (16 ≤ n → n ≤ 23 → puts { x with dropc := mset 0 x.dropc (n - 16) v32 })
        ∧ (n ≤ 31 → Gives (.muGets d a u) s (s.exchange s.cur (1664 + p)) d ((mget 0 x.s n).zeroExtend 64) 0 8
          ∧ Completes (.muSets a b u) s ((s.setPress p { x with s := mset 0 x.s n v32 }).exchange s.cur (1664 + p)) 8))
    ∧ (x.isBusy s.cycle = false → runs →
        let later := fun (w : PWrite) => puts { x with pend := x.pend ++ [(x.beat + 1, w)] }
        (n = 5 → later (.setPfs v32)) ∧ (n = 6 → later (.setAmax v32)) ∧ (n = 7 → later (.setSatc v32)))
    ∧ (n ≤ 3 ∨ n = 15 ∨ 24 ≤ n ∨ x.isBusy s.cycle = true ∨ (runs ∧ n ≠ 5 ∧ n ≠ 6 ∧ n ≠ 7)
        ∨ (n = 14 ∧ s.evtOk v.toNat = false) → traps (.muSetr a b u))
    ∧ (31 < n ∨ runs ∨ x.isBusy s.cycle = true → traps (.muGets d a u) ∧ traps (.muSets a b u))

/-- On a strand slot away from the end of local memory, for a press of its cluster that is not busy: MU.START of a STOPPED
press with no held record makes it RUN at the offset; MU.RESUME of a STOPPED press makes it RUN where it stood;
MU.STOP gives PSTAT as it stood and makes a running press STOPPING; MU.RESET of one that does not run leaves it
STOPPED at PC 0 with no tile register, queue entry or held record, its event queued if EVT is not 0; MU.IMLD copies
words of local memory into instruction memory, or raises the memory-error trap where a source granule is in error (log
entry 49); MU.SAVE and MU.LOAD of a STOPPED press, with nothing to release, begin an image. In another state, or with
operands that their rules exclude, each but MU.STOP raises the engine-command trap outside a handler with nothing
changed. Request and answer carry clocks. (That an image is written or read by one later event is log entry 3.) (R58,
R314, R317, R318, R319, R320, R323, R498) -/
def Obligations.PressCommands : Prop :=
  ∀ (s : State) (d a b : GReg) (u : BitVec 1), s.cur < 1536 → s.pc ≠ 0xFFFC →
    let p := 2 * (s.cur / 16) + u.toNat
    let x := s.pressAt p
    let v := (s.readG a).toNat
    let n := (s.readG b).toNat
    let src := v % 2 ^ 16
    let dst := v / 2 ^ 16 % 2 ^ 16
    let enters := fun (y : Press) => (s.setPress p { y with st := .run, cycle := s.cycle, nextAt := x.beat, faulted := false }).exchange
      s.cur (1664 + p)
    let traps := fun (i : Instr) => s.bk.inTrap = false → TrapsTo i s s 0x11 (s.word.zeroExtend 64) 0 false
    let free := x.isBusy s.cycle = false
    (free → x.st = .stopped → x.held = [] → v < 0x10000 → v % 4 = 0 → Completes (.muStart a u) s (enters { x with pc := v }) 8)
    ∧ (¬ free ∨ x.st ≠ .stopped ∨ x.held ≠ [] ∨ 0x10000 ≤ v ∨ v % 4 ≠ 0 → traps (.muStart a u))
    ∧ (free → x.st = .stopped → Completes (.muResume u) s (enters x) 8)
    ∧ (¬ free ∨ x.st ≠ .stopped → traps (.muResume u) ∧ traps (.muSave a b u) ∧ traps (.muLoad a b u))
    ∧ (∃ y : Press, Gives (.muStop d u) s ((s.setPress p y).exchange s.cur (1664 + p)) d (BitVec.ofNat 64 x.pstat) 0 8
        ∧ (x.st = .run → y = { x with st := .stopping, nextAt := y.nextAt }) ∧ (x.st ≠ .run → y = x))
    ∧ (free → x.st = .stopped ∨ x.st = .fault → ∃ (t : State) (lat : Nat), Completes (.muReset u) s (t.exchange s.cur (1664 + p)) lat
        ∧ (t.pressAt p).st = .stopped ∧ (t.pressAt p).pc = 0 ∧ (t.pressAt p).y = [] ∧ (t.pressAt p).q = []
        ∧ (t.pressAt p).held = [] ∧ (t.pressAt p).fcause = 0 ∧ (t.pressAt p).pend = []
        ∧ (t.pressAt p).evPost = (if x.evt = 0 then x.evPost
            else x.evPost ++ [(BitVec.ofNat 64 (p % 2 * 2 ^ 8 + s.cur / 16 % 2 ^ 7 * 2 ^ 9), x.evt, none)])
        ∧ (t.pressAt p).acc = x.acc ∧ (t.pressAt p).v = x.v ∧ (t.pressAt p).s = x.s ∧ t.cores = s.cores ∧ t.mem = s.mem)
    ∧ (¬ free ∨ x.st = .run ∨ x.st = .stopping → traps (.muReset u) ∧ traps (.muImld a b u))
    ∧ (let t := s.landFor s.cur (.localMem s.cur)
       let lat := 16 + (n + 15) / 16
       free → x.st = .stopped ∨ x.st = .fault → v < 2 ^ 32 → src % 4 = 0 → dst % 4 = 0 → n % 4 = 0 → 0 < n →
       src + n ≤ 0x10000 → dst + n ≤ 0x10000 → t.bad (localBase s.cur + src) n = false →
       Completes (.muImld a b u) s (((t.put (imemBase p + dst) (t.bytesAt (localBase s.cur + src) n)).setPress p
         { x with busy := some (.imld (s.cycle + lat)) }).exchange s.cur (1664 + p)) lat)
    ∧ (let t := s.landFor s.cur (.localMem s.cur)
       let fits := v < 2 ^ 32 ∧ src % 4 = 0 ∧ dst % 4 = 0 ∧ n % 4 = 0 ∧ 0 < n ∧ src + n ≤ 0x10000 ∧ dst + n ≤ 0x10000
       (¬ fits → traps (.muImld a b u))
       ∧ (free → x.st = .stopped ∨ x.st = .fault → fits → t.bad (localBase s.cur + src) n = true → s.bk.inTrap = false →
         TrapsTo (.muImld a b u) s (t.memError (localBase s.cur + src)) 0x14 (BitVec.ofNat 64 src) 0 false))
    ∧ (free → x.st = .stopped → Released s .device →
       let va := fun (e : TensorDesc) => e.vbase + v / 2 ^ 16
       let desc := fun (w : Bool) => match s.me.latched with
         | some (.command _ src _ _) => src
         | _ => s.imageDesc a b w
       (∀ e, desc true = some e →
          Completes (.muSave a b u) s ((s.setPress p
            { x with busy := some (.save s.cur (v % 2 ^ 6) e.pages (va e) (s.readG b)) }).exchange s.cur (1664 + p)) 8)
       ∧ (∀ e, desc false = some e →
          Completes (.muLoad a b u) s ((s.setPress p
            { x with busy := some (.load s.cur (v % 2 ^ 6) e.pages (va e) (s.readG b)) }).exchange s.cur (1664 + p)) 8)
       ∧ (desc true = none → traps (.muSave a b u)) ∧ (desc false = none → traps (.muLoad a b u)))

/-- On a strand slot away from the end of local memory: LK.POST, with nothing to release, appends gb to queue ga[9:8] of
lookup core ga[6:0] and gives 1, or gives 0 when it holds 16; LK.STAT gives a register of the core named, as an
acquire at DEVICE scope (2 cycles more than its L, log entry 78); at SUPER LK.IMLD copies words of local memory into
the store of a core that is not running, LK.RUN starts slot 0 of such a core at SUPER at gb with counters and window
cleared, and LK.HALT stops every slot of the core at its next boundary, and once all stand there frees them and gives
how many were not FREE at its issue; until then it stays. Operands that R382 and R384 exclude raise the engine-command
trap outside a handler with nothing changed, and a source in error the memory-error trap (log entry 49). Request and
answer carry clocks; a slot that LK.RUN starts keeps its acquire mark (log entry 96). (What a halted slot's waits come
to is R177's, read as log entry 30 says; that LK.RUN, LK.HALT and LK.IMLD have no release part is the model's reading,
log entry 54.) (R58, R64, R177, R382, R383, R384, R385) -/
def Obligations.LookupCommands : Prop :=
  ∀ (s : State) (d a b : GReg) (n : BitVec 3), s.cur < 1536 → s.pc ≠ 0xFFFC →
    let v := (s.readG a).toNat
    let w := (s.readG b).toNat
    let u := 1536 + v % 128
    let q := mget [] (s.core u).eq (v / 2 ^ 8 % 4)
    let m := 1536 + v / 2 ^ 32 % 128
    let src := v % 2 ^ 16
    let dst := v / 2 ^ 16 % 2 ^ 15
    let traps := fun (i : Instr) => s.bk.inTrap = false → TrapsTo i s s 0x11 (s.word.zeroExtend 64) 0 false
    let fits := v / 2 ^ 31 % 2 = 0 ∧ v < 2 ^ 39 ∧ (s.core m).look.run = false ∧ src % 4 = 0 ∧ dst % 4 = 0 ∧ w % 4 = 0 ∧ 0 < w
      ∧ src + w ≤ 0x10000 ∧ dst + w ≤ 0x8000
    (v < 2 ^ 10 → v / 2 ^ 7 % 2 = 0 → Released s .device →
      (let more := fun (c : Core) => { c with eq := mset [] c.eq (v / 2 ^ 8 % 4) (q ++ [⟨s.readG b, .device⟩]) }
       q.length < 16 → Gives (.lkPost d a b) s ((s.updCore u more).exchange s.cur u) d 1 0 16)
      ∧ (16 ≤ q.length → Gives (.lkPost d a b) s (s.exchange s.cur u) d 0 0 16))
    ∧ (2 ^ 10 ≤ v ∨ v / 2 ^ 7 % 2 = 1 → traps (.lkPost d a b))
    ∧ (v < 128 → n.toNat ≤ 4 → Gives (.lkStat d a n) s ((s.exchange s.cur u).acquire s.cur s.slot .device) d
        (BitVec.ofNat 64 ((s.core u).lookReg n.toNat)) 0 18)
    ∧ (128 ≤ v ∨ 4 < n.toNat → traps (.lkStat d a n))
    ∧ (s.super = true →
      (fits → let t := s.landFor s.cur (.localMem s.cur)
        (t.bad (localBase s.cur + src) w = false → Completes (.lkImld a b) s
          ((t.put (storeBase (m - 1536) + dst) (t.bytesAt (localBase s.cur + src) w)).exchange s.cur m) (24 + (w + 15) / 16))
        ∧ (t.bad (localBase s.cur + src) w = true → s.bk.inTrap = false →
          TrapsTo (.lkImld a b) s (t.memError (localBase s.cur + src)) 0x14 (BitVec.ofNat 64 src) 0 false))
      ∧ (¬ fits → traps (.lkImld a b))
      ∧ (let goes := fun (l : Lookup) => { l with run := true, skipc := 0, whit := 0, fhit := 0, fmiss := 0, window := [] }
         let fresh : Slot := { st := .run, readyAt := s.cycle + 8, acqMark := (s.slotOf u 0).acqMark, b0 := { pc := (s.readG b).truncate 16, estat := 1 } }
         v < 128 → w < 0x8000 → w % 4 = 0 → (s.core u).look.run = false → Completes (.lkRun a b) s
          (((s.updCore u (fun c => { c with look := goes c.look })).setSlot u 0 fresh).exchange s.cur u) 16)
      ∧ (128 ≤ v ∨ 0x8000 ≤ w ∨ w % 4 ≠ 0 ∨ (s.core u).look.run = true → traps (.lkRun a b))
      ∧ (v < 128 →
        let t := s.haltCore u
        let c := (t.lookHalt u).core u
        let n := match s.me.latched with
          | some (.count n) => n
          | _ => ((s.core u).slots.filter (fun e => decide (e.2.st ≠ .free))).length
        (t.atRest u = true → Gives (.lkHalt d a) s ((t.lookHalt u).exchange s.cur u) d (BitVec.ofNat 64 n) 0 1)
        ∧ (t.atRest u = false → exec (.lkHalt d a) s = .next (t.setSlot s.cur s.slot
            { s.me with readyAt := s.cycle + 1, latched := some (.count n) }))
        ∧ t = s.setCore u (t.core u) ∧ t.lookHalt u = s.setCore u c
        ∧ c.look.run = false ∧ c.look.desc = [] ∧ c.look.window = [] ∧ c.slots.all (fun e => decide (e.2.st = .free)) = true
        ∧ c.eq = (s.core u).eq ∧ ownBase u = storeBase (v % 128))
      ∧ (128 ≤ v → traps (.lkHalt d a)))

/-- On a lookup slot away from the end of its store: LK.TDESC of a record in the store gives 0 and creates the descriptor,
or a status, its slot in WAIT meanwhile and the page walks reporting their errors (log entry 7), and raises the
memory-error trap for a record in error (log entry 49); LK.TFREE frees a descriptor that no open bag names and gives
0, otherwise 5; LK.BOPEN of a valid dense descriptor opens an empty bag of zeros, LK.BDROP closes the slot's bag and
gives its row count, LK.WCLR empties the window, LK.GETC gives a counter. LK.BOPEN of what R391 excludes (a descriptor
that is not valid or CSR, another POOL, a reserved bit), and a descriptor number above 7, raise the engine-command
trap outside a handler. Nothing else changes. (R275, R387, R388, R390, R391, R393, R394, R399) -/
def Obligations.LookupTables : Prop :=
  ∀ (s : State) (d a b : GReg) (n : BitVec 3), 1536 ≤ s.cur → s.pc ≠ 0xFFFC →
    let l := (s.core s.cur).look
    let v := (s.readG a).toNat
    let m := (s.readG b).toNat
    let withLook := fun (t : State) (y : Lookup) => t.setCore s.cur { t.core s.cur with look := y }
    let traps := fun (i : Instr) => s.bk.inTrap = false → TrapsTo i s s 0x11 (s.word.zeroExtend 64) 0 false
    let named := (s.core s.cur).slots.any (fun e => match e.2.bag with | some g => g.desc == v | none => false) = true
    (v % 64 = 0 → v < 0x8000 → m ≤ 7 →
      let t := s.landFor s.cur (.localMem s.cur)
      let key := storeBase (s.cur - 1536) + v
      let r := t.makeTable (t.numAt key 64) m
      let walked := t.afterWalks r (tableOf (t.numAt key 64)).ranges
      (t.bad key 64 = true → s.bk.inTrap = false → TrapsTo (.lkTdesc d a b) s (t.memError key) 0x14 (BitVec.ofNat 64 v) 0 false)
      ∧ (t.bad key 64 = false →
        (∀ e, r = .error e → GivesWaiting (.lkTdesc d a b) s walked d (BitVec.ofNat 64 e) 16)
        ∧ (∀ x, r = .ok x → ∃ y, GivesWaiting (.lkTdesc d a b) s (withLook walked y) d 0 (16 + 48 * x.pages.length)
            ∧ y = { (t.core s.cur).look with desc := y.desc } ∧ y.descAt m = some x
            ∧ ∀ j, j ≠ m → y.descAt j = (t.core s.cur).look.descAt j)))
    ∧ (v % 64 ≠ 0 ∨ 0x8000 ≤ v ∨ 7 < m → traps (.lkTdesc d a b))
    ∧ (v ≤ 7 → named → Gives (.lkTfree d a) s s d 5 0 4)
    ∧ (v ≤ 7 → ¬ named → Gives (.lkTfree d a) s (withLook s { l with desc := merase l.desc v }) d 0 0 4)
    ∧ (7 < v → traps (.lkTfree d a))
    ∧ (∀ x, l.validDesc (v % 8) = some x → x.csr = false → v / 8 % 32 = 0 → v / 2 ^ 8 % 4 ≠ 3 → v / 2 ^ 10 % 4 = 0 → v < 2 ^ 13 →
        let pool : Pool := if v / 2 ^ 8 % 4 = 0 then .sum else if v / 2 ^ 8 % 4 = 1 then .mean else .max
        let bag : Bag := { desc := v % 8, pool := pool, im := decide (v / 2 ^ 12 = 1), n := 0, acc := List.replicate x.el 0 }
        Completes (.lkBopen a) s (s.updMe (fun y => { y with bag := some bag })) 4)
    ∧ (l.validDesc (v % 8) = none ∨ (∃ x, l.validDesc (v % 8) = some x ∧ x.csr = true) ∨ v / 8 % 32 ≠ 0 ∨ v / 2 ^ 8 % 4 = 3
        ∨ v / 2 ^ 10 % 4 ≠ 0 ∨ 2 ^ 13 ≤ v → traps (.lkBopen a))
    ∧ (∀ g, s.me.bag = some g → Gives (.lkBdrop d) s (s.updMe (fun y => { y with bag := none })) d (BitVec.ofNat 64 g.n) 0 4)
    ∧ Completes .lkWclr s (withLook s { l with window := [] }) 4
    ∧ Gives (.lkGetc d n) s s d (BitVec.ofNat 64 ((s.core s.cur).lookReg n.toNat)) 0 4
    ∧ (s.core s.cur).lookReg 1 = l.skipc.toNat ∧ (s.core s.cur).lookReg 2 = l.whit.toNat
    ∧ (s.core s.cur).lookReg 3 = l.fhit.toNat ∧ (s.core s.cur).lookReg 4 = l.fmiss.toNat

/-- On a lookup slot away from the end of its store: LK.FETCH pools a row that the window holds (source 1, WHIT counted),
one read from the table (source 0, entered in the window; 24 cycles where every line of it is served in the own stack,
else 60: log entry 4), or for an index outside a table without IM a row of zeros (source 2, SKIPC counted), adding
element by element for SUM and MEAN and taking the maximum for MAX, and a row in error raises the memory-error trap;
LK.BCLOSE into an OPEN tile that fits writes the bag's row, closes the bag and gives its count; LK.SEAL seals as SEAL
does; LK.FIB of a fibre that its row pointers and columns admit adds a times each value into the sparse accumulator
and gives their number, all ones with nothing changed when they would overfill it, and raises the bounds trap for row
pointers out of order; LK.SPOUT posts the accumulator's entries as doublewords in column order (in one part for each
line that a doubleword touches), empties it and gives their number, a read-duplicated page at its home, its replicas
withdrawn in the same step. Nothing else changes. (Model's readings: a window entry of another width, log entry 32;
the conversion and flags of LK.BCLOSE, log entry 33; what counts as a hit, log entry 51; the age of a window entry,
log entry 53; a descriptor created again under an open bag, log entry 106; read-duplicated pages, log entry 22; the
split by lines, log entry 75.) (R386, R392, R393, R394, R395, R396, R397) -/
def Obligations.LookupWork : Prop :=
  ∀ (s : State) (d a b : GReg) (h : HReg) (n : BitVec 3), 1536 ≤ s.cur → s.pc ≠ 0xFFFC →
    let l := (s.core s.cur).look
    let i := sfield 32 (s.readG a).toNat
    let withBag := fun (t : State) (g : Option Bag) => t.updMe (fun y => { y with bag := g })
    let pooled := fun (t : State) (g : Bag) (row : List W32) (src : W64) (lat : Nat) =>
      let one := fun (x y : W32) => if g.pool = .max then (if g.n = 0 then y else BitVec.ofNat 32 (fpMin x.toNat y.toNat true).1)
        else BitVec.ofNat 32 (fpAdd 23 0 (fpOf x.toNat) (fpOf y.toNat)).1
      row.length = g.acc.length → ∃ fl, Gives (.lkFetch d a) s (withBag t (some { g with n := g.n + 1, acc := List.zipWith one g.acc row })) d src fl lat
    (∀ g x, s.me.bag = some g → l.validDesc g.desc = some x →
      (i < 0 ∨ (x.nrows : Int) ≤ i → g.im = false →
        pooled (s.updLook s.cur (fun l => { l with skipc := satInc l.skipc })) g (List.replicate x.el 0) 2 8)
      ∧ (i < 0 ∨ (x.nrows : Int) ≤ i → g.im = true → s.bk.inTrap = false →
        TrapsTo (.lkFetch d a) s s 0x08 (BitVec.ofInt 64 i) 0 false)
      ∧ (0 ≤ i → i < x.nrows →
        (∀ w, l.hit g.desc i.toNat s.me.acqMark x.el = some w →
          pooled (s.updLook s.cur (fun l => { l with whit := satInc l.whit })) g w.row 1 8)
        ∧ (∀ bs t, l.hit g.desc i.toNat s.me.acqMark x.el = none →
          s.lookRead x.pages ((x.vbase + i.toNat * x.rstr) % 2 ^ 57) (x.el * x.esz) = (.ok bs, t) →
          pooled (t.bump.updLook t.cur (fun y => y.enter ⟨g.desc, i.toNat, rowOf32 x.bf16 bs x.el, t.ticket + 1⟩)) g
            (rowOf32 x.bf16 bs x.el) 0 (s.rowTrip x.pages ((x.vbase + i.toNat * x.rstr) % 2 ^ 57) (x.el * x.esz)))
        ∧ (∀ key t, l.hit g.desc i.toNat s.me.acqMark x.el = none →
          s.lookRead x.pages ((x.vbase + i.toNat * x.rstr) % 2 ^ 57) (x.el * x.esz) = (.error key, t) → s.bk.inTrap = false →
          ∃ u, TrapsTo (.lkFetch d a) s u 0x14 (BitVec.ofNat 64 (x.vbase + i.toNat * x.rstr)) 0 false ∧ u = t.memError key)))
    ∧ (∀ g t, s.me.bag = some g → tileAddr (s.readG a) false = some t →
      let r := tileRef t.handle
      let x := s.buf r.cl r.b
      let e := if x.fmt = 1 then 2 else 4
      r.dev = s.devNum → r.inRange = true → x.gen = r.gen → x.state = .open_ → x.haar = false → x.fmt.toNat ≤ 1 → t.row < x.rows →
      t.off % e = 0 → t.off + g.acc.length * e ≤ 64 * x.pitch →
      ∃ fl, Gives (.lkBclose d a) s (withBag (s.tileWrite r.cl r.b t.row t.off (g.result (decide (x.fmt = 1))).1) none) d
        (BitVec.ofNat 64 g.n) fl 24)
    ∧ (∀ t, tileHandle (s.readG a) = some t →
      let r := tileRef t
      r.dev = s.devNum → r.inRange = true → (s.buf r.cl r.b).gen = r.gen → Released s .device →
      (s.sealTile r.cl r.b = .already → Gives (.lkSeal d a) s s d 1 0 24)
      ∧ (∀ u, s.sealTile r.cl r.b = .empty u → Gives (.lkSeal d a) s u d 2 0 24)
      ∧ (∀ u, s.sealTile r.cl r.b = .sealed u true → Gives (.lkSeal d a) s u d 0 0 24))
    ∧ (∀ x, l.validDesc n.toNat = some x → x.csr = true → (s.readG b).toNat < 2 ^ 32 → 0 ≤ i → i < x.nrows →
      ∀ p0 p1 t0, s.fibSeq x.pages 8 (x.vbase + 8 * i.toNat) 2 = .ok [p0, p1] t0 →
      (p1 < p0 ∨ x.nnz < p1 → s.bk.inTrap = false → TrapsTo (.lkFib d a b n) s s 0x08 (BitVec.ofNat 64 i.toNat) 0 false)
      ∧ ∀ cols t1, p0 ≤ p1 → p1 ≤ x.nnz → t0.fibSeq x.pages 4 (x.rstr + 4 * p0) (p1 - p0) = .ok cols t1 →
        (1024 - s.me.sparse.length < newColumns s.me.sparse cols → Gives (.lkFib d a b n) s s d (BitVec.allOnes 64) 0 8)
        ∧ ∀ vals t2, newColumns s.me.sparse cols ≤ 1024 - s.me.sparse.length →
          t1.fibSeq x.pages 4 (x.vval + 4 * p0) (p1 - p0) = .ok vals t2 →
          let sum := ((cols.zip vals).foldl (fibAdd (fpOf (s.readG b).toNat)) (s.me.sparse, 0)).1
          ∃ fl, Gives (.lkFib d a b n) s (t2.updMe (fun y => { y with sparse := sum })) d (BitVec.ofNat 64 (p1 - p0)) fl
            (8 + (p1 - p0)))
    ∧ (let hd := s.readH h
       let o := (s.readG a).toInt
       let c := s.me.sparse.length
       let pa := fun (k : Nat) => hd.pbase.toNat + o.toNat + 8 * k
       o % 8 = 0 → hd.v = true → 0 ≤ o → o + 8 * c ≤ hd.span.toNat → hd.w = true →
       (∀ k, k < c → s.mapped (pa k) = true) →
       let one := fun (e : (Nat × W32) × Nat) =>
         let post := fun (x : Nat) (bs : List Byte) => Posted.mk s.cur s.slot (.line (x / 64)) (BitVec.ofNat 64 x) bs
         let bs := leBytes 8 (e.1.1 + e.1.2.toNat * 2 ^ 32)
         let k := 64 - pa e.2 % 64
         if k < 8 then [post (pa e.2) (bs.take k), post (pa e.2 + k) (bs.drop k)] else [post (pa e.2) bs]
       let home := fun (t : State) (e : (Nat × W32) × Nat) => t.spoutOne hd (pa e.2) (e.1.1 + e.1.2.toNat * 2 ^ 32)
       (hd.rd = true → Gives (.lkSpout d a h) s ((s.me.sparse.zipIdx.foldl home s).updMe (fun y => { y with sparse := [] }))
         d (BitVec.ofNat 64 c) 0 (8 + c))
       ∧ (hd.rd = false → Gives (.lkSpout d a h) s ({ s with posted := s.posted ++ s.me.sparse.zipIdx.flatMap one }.updMe (fun y => { y with sparse := [] }))
         d (BitVec.ofNat 64 c) 0 (8 + c)))

/-- On a strand slot away from the end of local memory: with the Splice engine configured, an aligned argument inside the
staging area, fewer than 256 queued and nothing to release, each KV command but KVCFG and KVSTAT stands last in the
queue with the next serial number, which gd takes; unconfigured or with another argument it raises the engine-command
trap outside a handler, and with 256 queued the slot waits. KVSTAT gives a register of R448. At SUPER KVCFG and
DQ.QCFG give a status and, on 0, configure, their slots in WAIT for the whole latency and the page walks reporting
their errors; DQ.PRIO and DQ.QEN set a configured queue's level and enable; DQ.PUSH advances the tail by n and gives 1
if the ring has room, else gives 0; DQ.QGET gives a queue register as an acquire at DEVICE scope (2 cycles more than
its L, log entry 78); a record in error raises the memory-error trap (log entry 49). Nothing else changes. (What RANGE
and FORMAT of DQ.QCFG cover, and ranges past 2^57: log entry 36; what page walks report: log entry 7; the L of a
configuration that fails and the order of the steps of the Splice commands: log entry 68.) (R427, R434, R448, R455,
R456, R463, R478, R479) -/
def Obligations.SpliceAndQueueCommands : Prop :=
  ∀ (s : State) (d a b : GReg) (p : Bool) (n : BitVec 3), s.cur < 1536 → s.pc ≠ 0xFFFC →
    let k := s.splice
    let v := (s.readG a).toNat
    let w := (s.readG b).toNat
    let x := s.queue v
    let t := s.landFor s.cur (.localMem s.cur)
    let key := localBase s.cur + v
    let traps := fun (i : Instr) => s.bk.inTrap = false → TrapsTo i s s 0x11 (s.word.zeroExtend 64) 0 false
    let kv := fun (i : Instr) (fn : Nat) (opt : Bool) =>
      (∀ g, k.cfg = some g → v % 64 = 0 → v + 64 ≤ 4096 * g.ssize → k.queue.length < 256 → Released s .device →
        let cmd : SpliceCmd := { fn := fn, arg := v, opt := opt, serial := k.serial + 1, unit := s.cur, task := (s.core s.cur).task }
        Gives i s { s with splice := { k with serial := k.serial + 1, queue := k.queue ++ [cmd] } } d ((k.serial + 1).zeroExtend 64) 0 4)
      ∧ (∀ g, k.cfg = some g → v % 64 = 0 → v + 64 ≤ 4096 * g.ssize → 256 ≤ k.queue.length →
        exec i s = .next (s.setSlot s.cur s.slot { s.me with wait := .queue, st := .wait }))
      ∧ (k.cfg = none ∨ v % 64 ≠ 0 ∨ (∃ g, k.cfg = some g ∧ 4096 * g.ssize < v + 64) → traps i)
    kv (.kvmatch d a p) 1 p ∧ kv (.kvinsert d a) 2 false ∧ kv (.kvappend d a) 3 false ∧ kv (.kvref d a) 4 false
    ∧ kv (.kvunref d a p) 5 p ∧ kv (.kvpin d a) 6 false ∧ kv (.kvunpin d a) 7 false ∧ kv (.kvbt d a) 8 false
    ∧ kv (.kvtier d a) 9 false
    ∧ (v ≤ 9 → Gives (.kvstat d a) s s d (BitVec.ofNat 64 (k.statReg v)) 0 16) ∧ (9 < v → traps (.kvstat d a))
    ∧ (s.super = true → v % 64 = 0 → v < 0x10000 → t.bad key 64 = false →
      (∀ e lat u, t.spliceConfigure (t.numAt key 64) = .ok (e, lat, u) → GivesWaiting (.kvcfg d a) s u d (BitVec.ofNat 64 e) lat)
      ∧ (w ≤ 63 →
        let r := t.numAt key 64
        let walked := t.afterWalks (t.makeQueue r w) [(r % 2 ^ 57, 128 * 2 ^ (r / 2 ^ 64 % 2 ^ 5))]
        (∀ e, t.makeQueue r w = .error e → GivesWaiting (.dqQcfg d a b) s walked d (BitVec.ofNat 64 e) 16)
        ∧ (∀ y, t.makeQueue r w = .ok y → GivesWaiting (.dqQcfg d a b) s (walked.setQueue w y) d 0 (16 + 48 * y.pages.length))))
    ∧ (s.super = true → v % 64 = 0 → v < 0x10000 → t.bad key 64 = true → s.bk.inTrap = false →
        TrapsTo (.kvcfg d a) s (t.memError key) 0x14 (BitVec.ofNat 64 v) 0 false
        ∧ (w ≤ 63 → TrapsTo (.dqQcfg d a b) s (t.memError key) 0x14 (BitVec.ofNat 64 v) 0 false))
    ∧ (v ≤ 63 → x.conf = true →
      (s.super = true → w ≤ 7 → Completes (.dqPrio a b) s (s.setQueue v { x with prio := w }) 8)
      ∧ (s.super = true → w ≤ 1 → Completes (.dqQen a b) s (s.setQueue v { x with en := decide (w = 1) }) 8)
      ∧ (1 ≤ w → w ≤ 65536 → Released s .device →
        ((x.tail - x.head).toNat + w ≤ 2 ^ x.logn →
          Gives (.dqPush d a b) s (s.setQueue v { x with tail := x.tail + BitVec.ofNat 32 w }) d 1 0 4)
        ∧ (2 ^ x.logn < (x.tail - x.head).toNat + w → Gives (.dqPush d a b) s s d 0 0 4)))
    ∧ (v ≤ 63 → n.toNat ≤ 5 →
        Gives (.dqQget d a n) s (s.acquire s.cur s.slot .device) d (BitVec.ofNat 64 (s.queueReg v n.toNat)) 0 18)
    ∧ (63 < v ∨ x.conf = false ∨ w = 0 ∨ 65536 < w → traps (.dqPush d a b))

/-- On a strand slot away from the end of local memory: FAB.SETR and FAB.GETR reach a context; FAB.PUT, GET, PUTS, TPUT,
SEAL and ARED whose registers pass (or were latched before a wait) enter the context's queue with the next SEQ, which
gd takes (ARED contributes at once), wait with 8 queued, keeping their registers, and raise the engine-command trap
outside a handler when they do not pass; at SUPER FAB.GRP, WIN and WFREE give a status and, on 0, set the group or
window (WIN in WAIT), a record in error raising the memory-error trap (log entry 49); FAB.LSTAT gives a link's
register, of 16 Port B's; each FAB atomic, with nothing to release and no earlier command of the strand to that
device, at a mesh REM or window of this device writes what its operation gives for the old value, gives gd that value
(STA none) and acquires at DOMAIN scope (STA not); to another device it sends its request and waits (log entry 74).
Nothing else changes. (Model's readings: strides of FAB.TPUT, log entry 34; ARED with a source in error, 35; RANGE and
FORMAT of FAB.WIN, 36; a device without a route or membership, 55; register bits not named, 56; the L of a FAB.WIN
that fails, 68; that of FAB.LSTAT with its acquire, 78.) (R405, R407, R408, R410, R411, R412, R413, R414, R416, R417,
R418, R423) -/
def Obligations.FabricCommands : Prop :=
  ∀ (s : State) (d a b : GReg) (c : BitVec 2) (n : BitVec 3) (e : Bool) (z : AtSize), s.cur < 1536 → s.pc ≠ 0xFFFC →
    let x := s.ctx s.cur c.toNat
    let v := (s.readG a).toNat
    let w := (s.readG b).toNat
    let t := s.landFor s.cur (.localMem s.cur)
    let r := t.numAt (localBase s.cur + v) 64
    let in_ := nb (r % 2 ^ 256) t.devNum
    let rest := r / 2 ^ 272 % 2 ^ 240
    let withFab := fun (u : State) (f : Fabric) => { u with fabric := f }
    let traps := fun (i : Instr) => s.bk.inTrap = false → TrapsTo i s s 0x11 (s.word.zeroExtend 64) 0 false
    let regs := match s.me.latched with
      | some (.command k _ _ _) => k
      | _ => x.regs
    let waits := fun (i : Instr) => exec i s = .next (s.setSlot s.cur s.slot
      { s.me with wait := .queue, st := .wait, latched := some (.command regs none none true) })
    let queued := fun (i : Instr) (fn : Nat) (ok : Bool) (opnd : W64) (sl : Bool) =>
      let passes := s.resumed = true ∨ (ok = true ∧ s.cwOk (x.reg 4) = true)
      (passes → x.queue.length < 8 → Released s .domain →
        ∃ k : FabCmd, Gives i s (withFab (s.setCtx s.cur c.toNat { x with seq := x.seq + 1, queue := x.queue ++ [k] })
            { s.fabric with order := s.fabric.order + 1 }) d ((x.seq + 1).zeroExtend 64) 0 4
          ∧ k.fn = fn ∧ k.seq = (x.seq + 1).toNat ∧ k.slot = s.slot ∧ k.loc = mget 0 regs 0 ∧ k.rem = mget 0 regs 1
          ∧ k.geom = mget 0 regs 2 ∧ k.aux = mget 0 regs 3 ∧ k.cw = mget 0 regs 4 ∧ k.opnd = opnd ∧ k.sealed = sl)
      ∧ (passes → 8 ≤ x.queue.length → waits i)
      ∧ (¬ passes → traps i)
    Completes (.fabSetr a c n) s (s.setCtx s.cur c.toNat { x with regs := mset 0 x.regs n.toNat (s.readG a) }) 4
    ∧ Gives (.fabGetr d c n) s s d (if n = 5 then x.seq.zeroExtend 64 else mget 0 x.regs n.toNat) 0 4
    ∧ queued (.fabPut d c) 0x10 (s.moveIssue x 0x10) 0 false ∧ queued (.fabGet d c) 0x11 (s.moveIssue x 0x11) 0 false
    ∧ queued (.fabPuts d c) 0x12 (s.moveIssue x 0x12) 0 false ∧ queued (.fabTput d e c) 0x13 (s.tputIssue x) 0 e
    ∧ queued (.fabSeal d a c) 0x14 (match tileHandle (s.readG a) with | some h => s.fabHandle h | none => false) (s.readG a) false
    ∧ (let passes := s.resumed = true ∨ (s.aredIssue x v = true ∧ s.cwOk (x.reg 4) = true)
       (passes → x.queue.length < 8 → Released s .domain →
          Gives (.fabAred d a c) s (s.contribute c.toNat v) d ((x.seq + 1).zeroExtend 64) 0 4)
       ∧ (passes → 8 ≤ x.queue.length → waits (.fabAred d a c)) ∧ (¬ passes → traps (.fabAred d a c)))
    ∧ (s.super = true → v % 64 = 0 → v < 0x10000 → t.bad (localBase s.cur + v) 64 = false →
      (w ≤ 15 →
        (in_ = false ∨ rest ≠ 0 → Gives (.fabGrp d a b) s t d 6 0 16)
        ∧ (in_ = true → rest = 0 → t.fabric.insts.any (fun i => i.group == w) = true → Gives (.fabGrp d a b) s t d 5 0 16)
        ∧ (in_ = true → rest = 0 → t.fabric.insts.any (fun i => i.group == w) = false →
          let g : Group := { members := BitVec.ofNat 256 r, tmo := r / 2 ^ 256 % 2 ^ 16, inst := 0 }
          Gives (.fabGrp d a b) s (withFab t { t.fabric with groups := mset {} t.fabric.groups w g }) d 0 0 16))
      ∧ (w ≤ 63 →
        let walked := t.afterWalks (t.makeWindow r w) [(r % 2 ^ 57, 4096 * (r / 2 ^ 64 % 2 ^ 32))]
        (∀ k, t.makeWindow r w = .error k → GivesWaiting (.fabWin d a b) s walked d (BitVec.ofNat 64 k) 16)
        ∧ (∀ y, t.makeWindow r w = .ok y → GivesWaiting (.fabWin d a b) s
            (withFab walked { walked.fabric with windows := mins (merase walked.fabric.windows w) w y }) d 0
            (16 + 48 * y.pages.length))))
    ∧ (s.super = true → v % 64 = 0 → v < 0x10000 → t.bad (localBase s.cur + v) 64 = true → s.bk.inTrap = false →
      (w ≤ 15 → TrapsTo (.fabGrp d a b) s (t.memError (localBase s.cur + v)) 0x14 (BitVec.ofNat 64 v) 0 false)
      ∧ (w ≤ 63 → TrapsTo (.fabWin d a b) s (t.memError (localBase s.cur + v)) 0x14 (BitVec.ofNat 64 v) 0 false))
    ∧ (s.super = true → v ≤ 63 →
      (s.windowUsed v = true → Gives (.fabWfree d a) s s d 5 0 4)
      ∧ (s.windowUsed v = false → Gives (.fabWfree d a) s (withFab s { s.fabric with windows := merase s.fabric.windows v }) d 0 0 4))
    ∧ (v ≤ 15 → Gives (.fabLstat d a) s (s.acquire s.cur s.slot .device) d (BitVec.ofNat 64 (mget {} s.fabric.links v).word) 0 18)
    ∧ (v = 16 → Gives (.fabLstat d a) s (s.acquire s.cur s.slot .device) d
        (BitVec.ofNat 64 (s.fabric.portB % 4 + s.pool.length % 2 ^ 23 * 2 ^ 32)) 0 18)
    ∧ (16 < v → traps (.fabLstat d a))
    ∧ (let rem := mget 0 regs 1
       let n := fun (z : AtSize) => v % 2 ^ (8 * z.bytes)
       let ends := fun (i : Instr) (code : Nat) (u : State) (old : Nat) =>
         if code = 1 then Completes i s u 16
         else Gives i s (u.acquire u.cur u.slot .domain) d (BitVec.ofNat 64 old) 0 (16 + acqCost u.cur .domain)
       let go := fun (i : Instr) (z : AtSize) (code : Nat) (m : Nat) =>
        let cd : BitVec 4 := BitVec.ofNat 4 code
        let ready := fun (dev : Nat) => (code = 0 ∨ s.fabPending s.cur s.slot dev (s.fabric.order + 1) = false)
          ∧ (code = 0 ∨ Released s .domain)
        let sends := fun (dev : Nat) (win : Bool) (ep : W64) =>
          (s.routeless dev = true → s.bk.inTrap = false → TrapsTo i s s 0x14 rem 0 (decide (cd ≠ 0)))
          ∧ (s.routeless dev = false →
            let req := RemoteRequest.atomic s.devNum ep win cd z (BitVec.ofNat 64 (n z)) (BitVec.ofNat 64 m) (s.clockOf s.cur)
            exec i s = .next (State.setSlot { s with outbox := s.outbox ++ [.request dev req] } s.cur s.slot
              { s.me with wait := .remote (.fab d cd rem), st := .run, readyAt := s.cycle + 8,
                          latched := some (.command regs none none true) }))
        (nb (mget 0 regs 2).toNat 63 = false →
          (s.resolve s.cur rem z.bytes = none → traps i)
          ∧ ∀ p, s.resolve s.cur rem z.bytes = some p → ready p.dev →
            (p.dev ≠ s.devNum → sends p.dev false p.mesh)
            ∧ (p.dev = s.devNum →
              let t1 := if p.tile then s else s.landFor s.cur (.localMem p.unit)
              let old := t1.numAt p.key z.bytes
              (p.tile = false ∨ code = 0 ∨ (s.buf p.cl p.buf).state = .open_) → (code = 1 ∨ t1.bad p.key z.bytes = false) →
              ends i code (match aopValue cd z old (n z) m with
                | some y => t1.put p.key (leBytes z.bytes y)
                | none => t1) old))
        ∧ (nb (mget 0 regs 2).toNat 63 = true →
          let dev := rem.toNat / 2 ^ 56 % 2 ^ 8
          (rem.toNat % 2 ^ 50 % z.bytes ≠ 0 ∨ s.member dev = false → traps i)
          ∧ (rem.toNat % 2 ^ 50 % z.bytes = 0 → s.member dev = true → ready dev →
            (dev ≠ s.devNum → sends dev true rem)
            ∧ (dev = s.devNum → ∀ y, s.atomWindow State.ownLineFirst dev rem.toNat cd z (n z) m (s.clockOf s.cur) = .ok y →
              (y.status = .window → s.bk.inTrap = false → TrapsTo i s s 0x08 rem 0 (decide (cd ≠ 0)))
              ∧ (y.status = .done → ends i code (if y.clock = 0 then y.state
                  else y.state.setClock y.state.cur (maxW (y.state.clockOf y.state.cur) y.clock)) y.value))))
       go (.fabLda d a z c) z 0 0 ∧ go (.fabSta d a z c) z 1 0 ∧ go (.fabAmoswap d a z c) z 2 0
      ∧ go (.fabAmocas d a b z c) z 3 ((s.readG b).toNat % 2 ^ (8 * z.bytes)) ∧ go (.fabAmoadd d a z c) z 4 0
      ∧ go (.fabAmoand d a z c) z 5 0 ∧ go (.fabAmoor d a z c) z 6 0 ∧ go (.fabAmoxor d a z c) z 7 0
      ∧ go (.fabAmomin d a z c) z 8 0 ∧ go (.fabAmomax d a z c) z 9 0 ∧ go (.fabAmominu d a z c) z 10 0
      ∧ go (.fabAmomaxu d a z c) z 11 0 ∧ go (.fabAmofadd d a c) .w 12 0)

/-- In a group without a fault each S instruction with guard 1 leaves for beat t + 1 one write of its scalar, predicates,
threshold or press register (and the commit of its flags, for SF instructions), SSET of NFMT a write that governs the
third bundle after; BR with guard 1 moves the PC to its target for beat t + 2, LOOP decrements its counter and, unless
it is then 0, moves the PC for beat t + 1 and rotates, STOP makes the press STOPPING. With guard 0 nothing changes.
Nothing else changes in the press, and nothing outside it. (R301, R305, R307, R313, R336, R359, R360, R361, R362,
R363, R365) -/
def Obligations.PressScalar : Prop :=
  ∀ (s : State) (g cn cm ca : BitVec 4) (sd sa sb : BitVec 5) (k : BitVec 3) (e14 tgt : BitVec 14) (e19 : BitVec 19) (e16 : BitVec 16)
      (e8 sel : BitVec 8) (vs : BitVec 6), s.pr.found = none →
    let X := s.pr
    let a := X.sreg sa
    let b := X.sreg sb
    let t := X.beat
    let does := fun (i : Instr) (Y : Press) =>
      (X.creg g = true → exec i s = .next (s.setPress s.press Y)) ∧ (X.creg g = false → exec i s = .next (s.setPress s.press X))
    let puts := fun (i : Instr) (ws : List PWrite) => does i { X with pend := X.pend ++ ws.map (fun w => (t + 1, w)) }
    let gives := fun (i : Instr) (v : W32) => puts i [.s sd.toNat v]
    let sf := fun (i : Instr) (r : FRes) =>
      puts i (.s sd.toNat (BitVec.ofNat 32 r.1) :: if r.2 = 0 then [] else [.commit r.2 0 0])
    let fa := fpOf a.toNat
    let fb := fpOf b.toNat
    let cond := fun (y : W32) => if k = 0 then decide (a = y) else if k = 1 then decide (a ≠ y)
      else if k = 2 then decide (a.toInt < y.toInt) else if k = 3 then decide (y.toInt ≤ a.toInt)
      else if k = 4 then decide (a.toNat < y.toNat) else decide (y.toNat ≤ a.toNat)
    let both := fun (i : Instr) (v : Bool) => puts i [.c cn.toNat v, .c cm.toNat (!v)]
    gives (.sadd g sd sa sb) (a + b) ∧ gives (.ssub g sd sa sb) (a - b) ∧ gives (.sand g sd sa sb) (a &&& b)
    ∧ gives (.sor g sd sa sb) (a ||| b) ∧ gives (.sxor g sd sa sb) (a ^^^ b)
    ∧ gives (.sshl g sd sa sb) (a <<< (b.toNat % 32)) ∧ gives (.sshr g sd sa sb) (a >>> (b.toNat % 32))
    ∧ gives (.ssra g sd sa sb) (a.sshiftRight (b.toNat % 32)) ∧ gives (.smul g sd sa sb) (a * b)
    ∧ gives (.smin g sd sa sb) (if a.toInt ≤ b.toInt then a else b) ∧ gives (.smax g sd sa sb) (if a.toInt ≤ b.toInt then b else a)
    ∧ gives (.sminu g sd sa sb) (if a.toNat ≤ b.toNat then a else b) ∧ gives (.smaxu g sd sa sb) (if a.toNat ≤ b.toNat then b else a)
    ∧ gives (.saddi g sd sa e14) (a + e14.signExtend 32) ∧ gives (.smovi g sd e19) (e19.signExtend 32)
    ∧ gives (.smovh g sd e16) ((e16.zeroExtend 32 <<< 16) ||| (X.sreg sd &&& 0xFFFF))
    ∧ both (.scmp g cn cm sa sb k) (cond b) ∧ both (.scmpi g cn cm sa k e8) (cond (e8.signExtend 32))
    ∧ puts (.pand g cn cm ca) [.c cn.toNat (X.creg cm && X.creg ca)] ∧ puts (.por g cn cm ca) [.c cn.toNat (X.creg cm || X.creg ca)]
    ∧ puts (.pxor g cn cm ca) [.c cn.toNat (X.creg cm != X.creg ca)] ∧ puts (.pandn g cn cm ca) [.c cn.toNat (X.creg cm && !X.creg ca)]
    ∧ sf (.sfadd g sd sa sb) (fpAdd 23 0 fa fb) ∧ sf (.sfsub g sd sa sb) (fpSub 23 0 fa fb) ∧ sf (.sfmul g sd sa sb) (fpMul 23 0 fa fb)
    ∧ sf (.sfmin g sd sa sb) (fpMin a.toNat b.toNat false) ∧ sf (.sfmax g sd sa sb) (fpMin a.toNat b.toNat true)
    ∧ sf (.sfrcp g sd sa) (fpRcp 23 fa) ∧ sf (.sfrsq g sd sa) (fpRsq 23 fa) ∧ sf (.sitof g sd sa) (fpOfInt 23 0 a.toInt)
    ∧ (∃ r : FRes, sf (.sftoi g sd sa) r ∧ r.1 = wrapN 32 (fpToInt 0 (-(2 ^ 31)) (2 ^ 31 - 1) fa).1
        ∧ r.2 = (fpToInt 0 (-(2 ^ 31)) (2 ^ 31 - 1) fa).2)
    ∧ gives (.sget g sd 0) X.amax ∧ gives (.sget g sd 1) X.satc ∧ gives (.sget g sd 2) (X.pfs &&& 0x3F)
    ∧ gives (.sget g sd sel) (X.now.sget sel.toNat)
    ∧ puts (.sset g 0 sa) [.setAmax a] ∧ puts (.sset g 1 sa) [.setSatc a] ∧ puts (.sset g 2 sa) [.setPfs a]
    ∧ does (.sset g 3 sa) { X with nfmtPend := X.nfmtPend ++ [(a, X.atBundle + 3)] }
    ∧ (3 < sel.toNat → puts (.sset g sel sa) [.th (sel.toNat - 3) a])
    ∧ gives (.svget g sd vs sb) ((X.vreg vs.toNat).extractLsb' (32 * sb.toNat) 32)
    ∧ does (.br g tgt) { X with pc := 4 * tgt.toNat, nextAt := t + 2 }
    ∧ (let Y := { X with pend := X.pend ++ [(t + 1, .s sa.toNat (a - 1))] }
       does (.loop g sa tgt) (if a - 1 = 0 then Y else { Y with
         pc := 4 * tgt.toNat, nextAt := t + 1, rrb := if X.rot = 0 then X.rrb else BitVec.ofNat 5 ((X.rrb.toNat + X.rot - 1) % X.rot) }))
    ∧ does (.stop g) { X with st := .stopping }

/-- In a RUN press, in a group without a fault, with its slot and lane groups free, a V instruction of factor f and N = 4f
/ groups beats whose operand tags its class admits reserves slot and lanes for N beats and, with guard 1, leaves one
write of vd with the result tag for beat t + N (t + N + 2 if f = 2) and commits of flags, AMAX and saturations for
beat t + N: each lane holds what its operation gives for the operands' lanes, a conversion's elements stand at their
places and the rest of vd is kept, a reduction stands in lane 0. With guard 0 no result is left. Operand tags that the
class does not admit record the domain fault 0x04 instead. Nothing else changes. (How exact results of the
transcendental operations are rounded is the model's reading: log entry 12.) (R40, R300, R333, R346, R347, R348, R349,
R350, R351, R352) -/
def Obligations.PressVector : Prop :=
  ∀ (s : State) (x : VOp) (m : CvtMode), s.pr.found = none → s.pr.st = .run → s.pr.faulted = false →
    let X := s.pr
    let k := if x.v1 then 3 else 2
    let t := X.beat
    let A := X.vreg x.va.toNat
    let B := X.vreg x.vb.toNat
    let D := X.vreg x.vd.toNat
    let S := (X.sreg x.ss).toNat
    let ha := X.vHaar x.va.toNat
    let hb := X.vHaar x.vb.toNat
    let hd := X.vHaar x.vd.toNat
    let F := if x.ty = .f32 then 23 else 7
    let W := if x.ty = .f32 then 32 else 16
    let L := if x.ty = .f32 then 32 else 64
    let lane := fun (v : BitVec 1024) (l : Nat) => v.toNat / 2 ^ (W * l) % 2 ^ W * 2 ^ (32 - W)
    freeAt X.slotFree k t = true → (vGroups x).all (fun l => freeAt X.laneFree l t) = true →
    let runs := fun (i : Instr) (f : Nat) (tag : Option Bool) (P : BitVec 1024 → Prop) =>
      let n := f * 4 / x.wid.groups
      (∀ h, tag = some h → ∃ u v, exec i s = .next u ∧ u = s.setPress s.press u.pr
        ∧ u.pr = { X with pend := u.pr.pend, slotFree := mset 0 X.slotFree k (t + n), laneFree := u.pr.laneFree }
        ∧ (∀ l ∈ vGroups x, mget 0 u.pr.laneFree l = t + n) ∧ (∀ l, l ∉ vGroups x → mget 0 u.pr.laneFree l = mget 0 X.laneFree l)
        ∧ (X.creg x.guard = false → u.pr.pend = X.pend)
        ∧ (X.creg x.guard = true → P v ∧ ∃ cs, (∀ e ∈ cs, ∃ fl am n', e = (t + n, PWrite.commit fl am n'))
            ∧ u.pr.pend = X.pend ++ (t + n + (if f = 2 then 2 else 0), .v (X.phys x.vd.toNat) v h) :: cs))
      ∧ (tag = none → ∃ u, exec i s = .next u ∧ u.pr.faulted = true ∧ u.pr.fcause.toNat % 256 = 4 ∧ u.pr.fpc = BitVec.ofNat 32 X.atFpc
          ∧ u.pr.pend = X.pend ∧ u.pr.v = X.v)
    let lanes := fun (g : Nat → FRes) (v : BitVec 1024) => ∀ l, l < L → lane v l = (g l).1 / 2 ^ (32 - W) % 2 ^ W * 2 ^ (32 - W)
    let one := fun (g : Nat → FRes) => lanes (fun l => g (lane A l))
    let two := fun (g : Nat → Nat → FRes) => lanes (fun l => g (lane A l) (lane B l))
    let plain1 := if ha then none else some false
    let plain2 := if ha || hb then none else some false
    let mul := if ha && hb then none else some (ha || hb)
    let elems := fun (lo w : Nat) (g : Nat → Nat) (v : BitVec 1024) => lo + 32 * w ≤ 1024 →
      (∀ j, j < 32 → v.toNat / 2 ^ (lo + w * j) % 2 ^ w = g j % 2 ^ w)
      ∧ ∀ q, q < lo ∨ lo + 32 * w ≤ q → v.getLsbD q = D.getLsbD q
    let sc := if m.sc then some S else none
    let w := fmtBits m.ifmt.toNat
    runs (.vadd x) 1 (if ha = hb then some ha else none) (two (fun a b => fpAdd F 0 (fpOf a) (fpOf b)))
    ∧ runs (.vsub x) 1 (if ha = hb then some ha else none) (two (fun a b => fpSub F 0 (fpOf a) (fpOf b)))
    ∧ runs (.vmul x) 1 mul (two (fun a b => fpMul F 0 (fpOf a) (fpOf b)))
    ∧ runs (.vfma x) 1 (if mul = some hd then some hd else none)
        (lanes (fun l => fpFma F 0 (fpOf (lane A l)) (fpOf (lane B l)) (fpOf (lane D l))))
    ∧ runs (.vmin x) 1 plain2 (two (fun a b => fpMin a b false)) ∧ runs (.vmax x) 1 plain2 (two (fun a b => fpMin a b true))
    ∧ runs (.vabs x) 1 plain1 (one (fun a => withSign a false)) ∧ runs (.vneg x) 1 (some ha) (one (fun a => withSign a (!nb a 31)))
    ∧ runs (.vscl x) 1 (some ha) (one (fun a => fpMul F 0 (fpOf a) (fpOf S)))
    ∧ runs (.vadds x) 1 plain1 (one (fun a => fpAdd F 0 (fpOf a) (fpOf S)))
    ∧ runs (.vmov x) 1 (some ha) (fun v => v = A)
    ∧ runs (.vbcast x) 1 (some false) (fun v => ∀ l, l < L → lane v l = S % 2 ^ W * 2 ^ (32 - W))
    ∧ runs (.vredSum x) 2 (some ha) (fun v => v.toNat < 2 ^ W ∧ v = (reduce x (fun a b => fpAdd 23 0 (fpOf a) (fpOf b)) X.now).1)
    ∧ runs (.vredMax x) 2 plain1 (fun v => v.toNat < 2 ^ W ∧ v = (reduce x (fun a b => fpMin a b true) X.now).1)
    ∧ runs (.vrcp x) 2 plain1 (one (fun a => fpRcp F (fpOf a))) ∧ runs (.vrsq x) 2 plain1 (one (fun a => fpRsq F (fpOf a)))
    ∧ runs (.vexp2 x) 2 plain1 (one (fpExp2 F)) ∧ runs (.vlog2 x) 2 plain1 (one (fpLog2 F))
    ∧ runs (.vtanh x) 2 plain1 (one (fpTanh F)) ∧ runs (.vgelu x) 2 plain1 (one (fpGelu F))
    ∧ runs (.vcvtBf x m) 2 (some ha) (elems (512 * m.p.toNat) 16 (fun j =>
        let a := A.toNat / 2 ^ (32 * j) % 2 ^ 32
        (toFloat 7 (fpOf a) (magnitude a) sc).1 / 2 ^ 16))
    ∧ runs (.vcvtFb x m) 2 (some ha) (elems 0 32 (fun j =>
        let a := A.toNat / 2 ^ (512 * m.p.toNat + 16 * j) % 2 ^ 16 * 2 ^ 16
        (toFloat 23 (fpOf a) (magnitude a) sc).1))
    ∧ runs (.vcvtFi x m) 2 (some ha) (elems (32 * w * m.p.toNat) w (fun j =>
        let a := A.toNat / 2 ^ (32 * j) % 2 ^ 32
        (toNarrow m.ifmt.toNat (X.nfmtAt X.atBundle) (fpOf a) (magnitude a) sc).1))
    ∧ runs (.vcvtIf x m) 2 (some ha) (elems 0 32 (fun j =>
        let a := intValue m.ifmt.toNat (A.toNat / 2 ^ (w * (32 * m.p.toNat + j)) % 2 ^ w)
        (toFloat 23 (.fin (decide (a < 0)) a.natAbs 0) (roundF 23 0 false a.natAbs 0).1 sc).1))
    ∧ runs (.vrope x) 2 plain2 (fun v => ∀ j, j < 16 →
        let r := ropePair S (B.toNat / 2 ^ (32 * j) % 2 ^ 32) (A.toNat / 2 ^ (64 * j) % 2 ^ 32) (A.toNat / 2 ^ (64 * j + 32) % 2 ^ 32)
        v.toNat / 2 ^ (64 * j) % 2 ^ 32 = r.1.1 % 2 ^ 32 ∧ v.toNat / 2 ^ (64 * j + 32) % 2 ^ 32 = r.2.1 % 2 ^ 32)

/-- In a RUN press, in a group without a fault, with its slot and its bank free, with tags, formats and planes as its rule
requires and, where it names one, a tile register that is valid, ready and free of its writer, an M, A or C
instruction of n beats with guard 1 takes slot and bank until t + n and leaves for beat t + n exactly the rows, tags,
registers, tile or plane changes of its rule, and commits; with guard 0 it takes slot and bank and leaves nothing. A
reader or writer of the tile register is noted until t + n. BLOAD makes the plane LOADING at once, with K0 = 0 its
rows zero, its RFMT the BFMT and its scales 1.0, and at its end sets KEXT, VALID and clears LOADING. Nothing else
changes. (R299, R305, R335, R338, R340, R341, R342, R343, R344, R345, R354, R355) -/
def Obligations.PressEngines : Prop :=
  ∀ (s : State) (x : MOp) (g tag : BitVec 4) (bk yk v8 : BitVec 3) (r n1 sp k0 : BitVec 5) (f : Bool) (pl : BitVec 1) (m1 vs : BitVec 6)
      (bw : BitVec 2), s.pr.found = none → s.pr.st = .run → s.pr.faulted = false →
    let X := s.pr
    let t := X.beat
    let b := bk.toNat
    let y := X.tileReg yk.toNat
    let rd := fun (y : Nat) => (X.tileReg y).v = true ∧ (X.tileReg y).rdy = true ∧ freeAt X.yWriter y t = true
    let af := X.nfmtAt X.atBundle % 8
    let bf := X.nfmtAt X.atBundle / 16 % 8
    let runsIn := fun (i : Instr) (g : BitVec 4) (k n : Nat) (bank : Option Nat) (use : Option (Nat × TileUse)) (ws : List PWrite)
        (s1 : State) (P : Map Plane) =>
      freeAt X.slotFree k t = true → (∀ b, bank = some b → freeAt X.bankFree b t = true) →
      ∃ u, exec i s = .next u ∧ u = (if X.creg g = true then s1 else s).setPress s.press u.pr
        ∧ u.pr = { X with pend := u.pr.pend, slotFree := mset 0 X.slotFree k (t + n),
                          bankFree := (match bank with | some b => mset 0 X.bankFree b (t + n) | none => X.bankFree),
                          yReader := (match use with
                            | some (y, .reads) => mset 0 X.yReader y (max (mget 0 X.yReader y) (t + n))
                            | _ => X.yReader),
                          yWriter := (match use with | some (y, .writes) => mset 0 X.yWriter y (t + n) | _ => X.yWriter),
                          planes := if X.creg g = true then P else X.planes }
        ∧ (X.creg g = false → u.pr.pend = X.pend)
        ∧ (X.creg g = true → ∃ cs, u.pr.pend = X.pend ++ (ws.map (fun w => (t + n, w)) ++ cs)
            ∧ ∀ e ∈ cs, ∃ fl am c, e = (t + n, PWrite.commit fl am c))
    let runs := fun (i : Instr) (g : BitVec 4) (k n : Nat) (bank : Option Nat) (ws : List PWrite) =>
      runsIn i g k n bank none ws s X.planes
    let tile := fun (i : Instr) (g : BitVec 4) (k n : Nat) (bank : Option Nat) (y : BitVec 3) (use : TileUse) (ws : List PWrite) =>
      runsIn i g k n bank (some (y.toNat, use)) ws s X.planes
    let tagIs := fun (h : Bool) => X.tagOf b = if h then 1 else 0
    let regs := fun (row : BitVec 8192) (h : Bool) => (List.range 8).map (fun q =>
      PWrite.v (X.phys (8 * v8.toNat + q)) (row.extractLsb' (1024 * q) 1024) h)
    (tag.toNat < 2 → runs (.azero g bk tag) g 1 1 (some b) ((List.range 32).map (fun r => .row b r 0) ++ [.tag b tag.toNat]))
    ∧ (tagIs false → runs (.aread g bk r v8 false) g 1 2 (some b) (regs (X.row b r.toNat) false))
    ∧ (tagIs true → runs (.aread g bk r v8 true) g 1 7 (some b) (regs (unwindRow (X.row b) r.toNat).1 false))
    ∧ runs (.areadC g bk r v8) g 1 2 (some b) (regs (X.row b r.toNat) (decide (X.tagOf b = 1)))
    ∧ (∀ h, (∀ q, q < 8 → X.vHaar (8 * v8.toNat + q) = h) →
        runs (.awrite g bk r v8 false) g 1 2 (some b) [.row b r.toNat (X.regRow v8), .tag b (if h then 1 else 0)]
        ∧ (h = decide (X.tagOf b = 1) →
            runs (.awrite g bk r v8 true) g 1 2 (some b) [.row b r.toNat (addRows (X.row b r.toNat) (X.regRow v8)).1]))
    ∧ runs (.abias g bk r v8 n1) g 1 (2 * (n1.toNat + 1)) (some b)
        ((if X.tagOf b = 1 then (if r = 0 then [0] else []) else (List.range (n1.toNat + 1)).map (fun i => r.toNat + i)).map
          (fun q => .row b q (addRows (X.row b q) (X.regRow v8)).1))
    ∧ (rd yk.toNat → y.haar = false → y.fmt ≠ 6 → tagIs f →
        let m := min (n1.toNat + 1) y.rows
        let rows := (List.range m).map (fun i => X.readRow b (r.toNat + i) f)
        tile (.astore g bk yk r n1 f) g 1 (2 * (n1.toNat + 1) + if f then 5 else 0) (some b) yk .writes
          [.tile yk.toNat y.handle ((storedRows y (X.nfmtAt X.atBundle) rows).1.zipIdx.map (fun e => (e.2, e.1)))
            (BitVec.ofNat 64 (2 ^ m - 1)) none])
    ∧ (rd yk.toNat → y.haar = true → y.fmt ≠ 6 →
        let cs := coefficientRows (X.row b) (decide (X.tagOf b = 0)) X.now.th
        let kept := (cs.1.zipIdx.filter (fun e => rowSurvives e.1)).take y.rows
        let out := storedRows y (X.nfmtAt X.atBundle) (kept.map (fun e => (e.1, 0)))
        tile (.astoreW g bk yk sp) g 1 72 (some b) yk .writes [.tile yk.toNat y.handle (out.1.zipIdx.map (fun e => (e.2, e.1)))
            (BitVec.ofNat 64 (2 ^ kept.length - 1)) (some (kept.map (·.2), BitVec.ofNat 24 ((X.sreg sp).toNat / 2 ^ 5 % 2 ^ 19 * 32))),
          .dropped b (32 - kept.length)])
    ∧ (let q := X.plane X.activeP
       let yt := X.tileReg x.yt.toNat
       let m := s.mmaRows x af yt (s.planeError s.press X x) X (List.range x.rows)
       rd x.yt.toNat → X.tagOf x.bank.toNat = (if yt.haar then 1 else 0) → yt.fmt.toNat = af → awFits x.aw af = true →
       pairOk af q.rfmt.toNat = true → m.2.2 = none →
       tile (.mma x) x.guard 0 x.beats (some x.bank.toNat) x.yt .reads (m.1.map (fun e => .row x.bank.toNat e.1 e.2))
       ∧ tile (.mmak x) x.guard 0 x.beats (some x.bank.toNat) x.yt .reads (m.1.map (fun e => .row x.bank.toNat e.1 e.2)))
    ∧ (let n := m1.toNat + 1
       rd yk.toNat → X.activeP ≠ pl.toNat → bw.toNat = bwOf bf → y.fmt.toNat = bf →
       (k0 = 0 ∨ (X.plane pl.toNat).rfmt.toNat = bf) → (List.range n).find? (s.loadBad y bf) = none →
       let one := BitVec.ofNat 256 (packBits 32 (List.replicate 8 0x3F800000))
       let begun : Plane := if k0 = 0
         then { rows := if bf = 6 then (List.range 256).map (fun k => (k, rowFull 0x77)) else [], rfmt := BitVec.ofNat 3 bf,
                valid := false, loading := true, kext := 0, scales := one }
         else { X.plane pl.toNat with loading := true }
       runsIn (.bload g yk pl k0 m1 bw) g 4 ((n * bloadRowBytes bw + 511) / 512) none (some (yk.toNat, .reads))
         ((List.range n).map (fun j => .planeRow pl.toNat (8 * k0.toNat + j) (s.loadRow y bf j)) ++ [.planeEnd pl.toNat (8 * k0.toNat + n)])
         (if k0 = 0 then s.cleanRows s.press pl.toNat 0 256 else s) (mset {} X.planes pl.toNat begun)
       ∧ ∀ (Z : Press) (k : Nat), (Z.applyWrite (.planeEnd pl.toNat k)).plane pl.toNat
           = { Z.plane pl.toNat with kext := max (Z.plane pl.toNat).kext k, valid := true, loading := false })
    ∧ ((X.plane 0).loading = false → (X.plane 1).loading = false → freeAt X.slotFree 0 t = true → runs (.bswapp g) g 4 1 none [.swap])
    ∧ (X.activeP ≠ pl.toNat → runs (.bscl g pl vs) g 4 1 none [.scales pl.toNat ((X.vreg vs.toNat).truncate 256)])

/-- In a RUN press, in a group without a fault and with guard 1: QPOP of a free tile register with an entry in its queue
and no register armed on it takes the oldest entry, the tile becomes HELD and its shape, mask, positions and row map
are the register's snapshot, ready two beats later; with no entry the register is armed. With a register valid, ready
and free of writers and readers, QREL frees the tile if its generation is current and empties the register for the
next beat; QPUSH with a place and no earlier waiter empties the register for the next beat and appends the handle to
the queue; QPUSH.E with a place and no earlier waiter appends the handle and the press number to the event queue of
the core and keeps the register. A QPOP of a valid register records fault 0x06. With guard 0, where each would so
complete, nothing changes. (R28, R308, R309, R311, R317, R322, R333, R335, R356, R357, R358) -/
def Obligations.PressTiles : Prop :=
  ∀ (s : State) (g : BitVec 4) (y : BitVec 3) (q eq : BitVec 2) (c : BitVec 4) (u1 : BitVec 1), s.pr.found = none → s.pr.st = .run →
    s.pr.faulted = false →
    let X := s.pr
    let p := s.press
    let r := X.tileReg y.toNat
    let at_ := tileRef r.handle
    let buf := s.buf at_.cl at_.b
    let free := r.v = true ∧ r.rdy = true ∧ freeAt X.yWriter y.toNat X.beat = true ∧ freeAt X.yReader y.toNat X.beat = true
    let core := 16 * (p / 2) + c.toNat
    let evq := mget [] (s.core core).eq eq.toNat
    let gone := X.pend ++ [(X.beat + 1, PWrite.gone y.toNat)]
    (X.creg g = true →
      (r.v = false → ∀ h b rest, X.queueOf q.toNat = (h, b) :: rest → X.armed q.toNat = [] →
        let ref := tileRef h
        let tb := s.buf ref.cl ref.b
        let snap : TileReg := { v := true, rdy := false, handle := h, fmt := tb.fmt, haar := tb.haar, rows := tb.rows,
                                pitch := tb.pitch, vmask := tb.vmask, pos := tb.pos, rmap := tb.rmap }
        ∃ t, exec (.qpop g y q) s = .next t ∧ t.pr.queueOf q.toNat = rest
          ∧ t.pr.tileReg y.toNat = snap
          ∧ t.pr.pend = X.pend ++ [(X.beat + 2, .rdy y.toNat)] ∧ t.buf ref.cl ref.b = { tb with state := .held, holder := some p }
          ∧ t.cores = s.cores ∧ t.mem = s.mem)
      ∧ (r.v = false → X.queueOf q.toNat = [] → ∃ t, exec (.qpop g y q) s = .next t
          ∧ t = s.setPress p { X with y := t.pr.y, armSeq := X.armSeq + 1 }
          ∧ t.pr.tileReg y.toNat = { v := true, arm := true, armq := q.toNat, armSeq := X.armSeq + 1 }
          ∧ ∀ j, j ≠ y.toNat → t.pr.tileReg j = X.tileReg j)
      ∧ (free → ∃ t, exec (.qrel g y) s = .next t ∧ t.pr.y = X.y ∧ t.pr.pend = gone
          ∧ (buf.gen = at_.gen → (t.buf at_.cl at_.b).state = .free ∧ (t.buf at_.cl at_.b).gen = buf.gen + 1)
          ∧ (buf.gen ≠ at_.gen → t.clusters = s.clusters) ∧ t.cores = s.cores ∧ t.mem = s.mem)
      ∧ (free → s.hasPlace (p / 2) u1.toNat q.toNat = true → s.queueTickets (p / 2) u1.toNat q.toNat = [] → buf.gen = at_.gen →
          ∃ t, exec (.qpush g y u1 q) s = .next t ∧ t.pr.y = X.y ∧ t.pr.pend = gone
            ∧ (t.pressAt (2 * (p / 2) + u1.toNat)).queueOf q.toNat =
                (s.pressAt (2 * (p / 2) + u1.toNat)).queueOf q.toNat ++ [(r.handle, true)]
            ∧ t.clusters = s.clusters ∧ t.cores = s.cores ∧ t.mem = s.mem)
      ∧ (free → evq.length < 16 → s.eventPushes core eq.toNat = [] → ∃ t, exec (.qpushE g y c eq) s = .next t ∧ t.pr.tileReg y.toNat = r
          ∧ mget [] (t.core core).eq eq.toNat = evq ++ [⟨BitVec.ofNat 64 (r.handle.toNat + p % 2 * 2 ^ 32), .cluster⟩]
          ∧ (∀ j, j ≠ core → t.core j = s.core j) ∧ t.clusters = s.clusters ∧ t.mem = s.mem))
    ∧ (∀ (Z : Press), (Z.applyWrite (.gone y.toNat)).tileReg y.toNat = {}
        ∧ ∀ j, j ≠ y.toNat → (Z.applyWrite (.gone y.toNat)).tileReg j = Z.tileReg j)
    ∧ (r.v = true → ∃ t, exec (.qpop g y q) s = .next t ∧ t.pr.faulted = true ∧ t.pr.fcause.toNat % 256 = 6 ∧ t.pr.y = X.y
        ∧ t.cores = s.cores ∧ t.clusters = s.clusters ∧ t.mem = s.mem)
    ∧ (X.creg g = false →
        (free → exec (.qrel g y) s = .next (s.setPress p X))
        ∧ (r.v = false → exec (.qpop g y q) s = .next (s.setPress p X))
        ∧ (free → s.hasPlace (p / 2) u1.toNat q.toNat = true → s.queueTickets (p / 2) u1.toNat q.toNat = [] →
            exec (.qpush g y u1 q) s = .next (s.setPress p X))
        ∧ (free → evq.length < 16 → s.eventPushes core eq.toNat = [] → exec (.qpushE g y c eq) s = .next (s.setPress p X)))

/-- A block read, one a cycle and for a slot with an empty buffer first, adds the words up to the end of the block, at
most 4 in all, to the fetch buffer of a running or waiting slot that holds at most 2, where they can be used 2 cycles
later, errors reported (log entry 7). A fill puts the line, with its granules in error (log entry 77), into the L1,
wakes slots that wait for a way, and ends each LD that waits for it (no granule in error) with its doubleword (an LD
of two lines once both are there, log entry 75), 8 cycles after its selection at the earliest. A write-back stores the
dirty bytes of the oldest dirty line, keeps it clean, and wakes slots that wait for a way. A release with no dirty
line ahead and no posted store of its slot outstanding is complete. The end of an invalidation clears the replicas of
the line. A pool snoop drops the line and answers with its data if it was dirty. A posted store with no earlier one of
its unit on its path (one local memory, one slice) lands, a slice exchanging clocks; one to another device is then
acknowledged. The answer to a waiting remote access, POSTQ and TASKDEC among them (log entry 74), ends it, one of a
seq_cst atomic with the clock step of log entry 14. Nothing else of the core, and no other byte, changes. (R61, R62,
R64, R66, R77, R80, R82, R139, R149, R150, R231, R416) -/
def Obligations.CoreArrivals : Prop :=
  ∀ (s : State) (u slot : Nat),
    let c := s.core u
    let x := s.slotOf u slot
    let L := max 1 (x.readyAt - s.cycle)
    (c.fetchPick u = some slot → c.fetchAt ≤ s.cycle →
      let t := s.landFor u (.localMem u)
      let a := x.active.pc.toNat + 4 * x.fetch.length
      let n := if (if 1536 ≤ u then 0x8000 else 0x10000) ≤ a then 0 else min (4 - a / 4 % 4) (4 - x.fetch.length)
      let r := t.report (t.badKey (ownBase u + a) (4 * n))
      exec (.fetchBlockRead u slot) s = .next ((r.setCore u { c with fetchAt := s.cycle + 1, fetchNext := slot + 1 }).setSlot u slot
        { x with
          fetch := x.fetch ++ (List.range n).map (fun j => BitVec.ofNat 32 (t.numAt (ownBase u + (a + 4 * j)) 4))
          landing := if x.fetch = [] then [] else x.landing.filter (fun e => decide (s.cycle < e.2)) ++ [(a, s.cycle + 2)]
          readyAt := if x.fetch = [] then max x.readyAt (s.cycle + 2) else x.readyAt })
      ∧ ∀ y : Slot, y.ready = max y.readyAt (y.landing.foldl (fun m e => if e.1 ≤ y.active.pc.toNat then max m e.2 else m) 0))
    ∧ (∀ i, c.fetchPick u = some i → (mget {} c.slots i).canFetch u = true ∧ ((mget {} c.slots i).fetch = []
        ∨ ∀ j, j < (if 1536 ≤ u then 8 else 16) → (mget {} c.slots j).canFetch u = true → (mget {} c.slots j).fetch ≠ []))
    ∧ (∀ ln m, (mget {} c.l1 ln).filling = true ∨ c.loadWaiters ln ≠ [] ∨ c.pref.any (fun e => e / 2 == ln) = true →
      makeWay c.l1 ln = some m → ∃ t, exec (.l1Fill u ln) s = .next t ∧ (∀ a, t.byteAt a = s.byteAt a)
        ∧ (let l := (mget {} c.l1 ln).fill (s.numAt (64 * ln) 64) (s.badGranules ln) (c.lineRd ln)
           mget {} (t.core u).l1 ln = { l with used := s.ticket + 1 }
           ∧ (∀ k, k ≠ ln → mget {} (t.core u).l1 k = mget {} m k)
           ∧ (∀ i d pa va h, (s.slotOf u i).wait = .load d pa va h → (t.core u).inError pa = false →
               (pa / 64 = ln → pa % 64 ≤ 56 →
                 t.slotOf u i = (s.slotOf u i).ends d (BitVec.ofNat 64 (l.data.toNat / 2 ^ (8 * (pa % 64)) % 2 ^ 64))
                   (s.cycle + max 1 ((s.slotOf u i).readyAt - s.cycle)))
               ∧ (56 < pa % 64 → c.needs pa ln = true → (t.core u).holds pa = true →
                 t.slotOf u i = (s.slotOf u i).ends d (BitVec.ofNat 64 ((t.core u).doubleword pa))
                   (s.cycle + max 1 ((s.slotOf u i).readyAt - s.cycle))))
           ∧ ∀ i k, (s.slotOf u i).wait = .way k → t.slotOf u i = { s.slotOf u i with wait := .none }))
    ∧ (∀ ln, c.fifo.find? FifoEntry.isLine = some (.line ln) → ∃ t, exec (.fifoWriteback u) s = .next t
        ∧ (let l := mget {} c.l1 ln
           (∀ j, j < 64 → l.dirty.getLsbD j = true → t.byteAt (64 * ln + j) = BitVec.ofNat 8 (l.data.toNat / 2 ^ (8 * j)))
           ∧ (∀ a, ¬ (∃ j, j < 64 ∧ l.dirty.getLsbD j = true ∧ a = 64 * ln + j) → t.byteAt a = s.byteAt a)
           ∧ mget {} (t.core u).l1 ln = { l with dirty := 0, since := 0 } ∧ (∀ k, k ≠ ln → mget {} (t.core u).l1 k = mget {} c.l1 k)
           ∧ (t.core u).fifo = c.fifo.filter (fun e => e != .line ln)
           ∧ ∀ i, t.slotOf u i = (match (s.slotOf u i).wait with
              | .way _ => { s.slotOf u i with wait := .none }
              | _ => s.slotOf u i)))
    ∧ (x.wait = .release → markerFirst slot c.fifo = true → s.posted.any (fun p => p.unit == u && p.slot == slot) = false →
      exec (.releaseComplete u slot) s =
        .next ((s.setCore u { c with fifo := c.fifo.filter (fun e => e != .marker slot) }).setSlot u slot
          { x with wait := .none, drained := true }))
    ∧ (∀ ln, x.wait = .replica ln →
        let t := (s.tell u (sliceKey (64 * ln))).withdraw ln
        exec (.replicaInvalidationDone u slot) s = .next (t.setSlot u slot { x with wait := .none, st := .run, clearedLine := some ln })
        ∧ t.replicas = mset 0 s.replicas ln 0 ∧ t.mem = s.mem)
    ∧ (∀ ln now, s.isPool (64 * ln) = true →
        let data := if (mget {} s.pool ln).dirty = true then some (BitVec.ofNat 512 (s.numAt (64 * ln) 64)) else none
        exec (.backInvalidateSnoop ln now) s = .next { s with
          pool := merase s.pool ln
          outbox := s.outbox ++ [.snooped ln data]
          mem := match now with | some v => writeBytes s.mem (64 * ln) (leBytes 64 v.toNat) | none => s.mem })
    ∧ (∀ i p, s.posted[i]? = some p → (s.posted.take i).any (fun q => q.unit == p.unit && sameDest p.dest q.dest) = false →
        ∃ t, exec (.postedStoreLanding i) s = .next t ∧ t.posted = s.posted.eraseIdx i ∧ t.cores = s.cores ∧ t.outbox = s.outbox
          ∧ t.clocks = (match p.dest with | .line _ => (s.exchange p.unit (sliceKey p.addr.toNat)).clocks | _ => s.clocks)
          ∧ (match p.dest with
             | .localMem v => t.mem = writeBytes s.mem (ownBase v + p.addr.toNat) p.bytes
             | .line _ => t.mem = writeBytes s.mem p.addr.toNat p.bytes
             | .device _ _ => t = { s with posted := s.posted.eraseIdx i }))
    ∧ (∀ a b, sameDest (.line a) (.line b) = true ↔ a = b ∨ Config.homeSlice a % 16 = Config.homeSlice b % 16)
    ∧ (∀ a b, sameDest (.localMem a) (.localMem b) = true ↔ a = b)
    ∧ (∀ r : RemoteReply, r.status = .done →
        (∀ d n e a, x.wait = .remote (.load d n e a) → Wakes (.remoteReply u slot r) s s u slot d
          (extended n (leNat (r.data.take n)) e) L)
        ∧ (∀ g a, x.wait = .remote (.store g a) → Wakes (.remoteReply u slot r) s s u slot 0 0 L)
        ∧ (∀ d k q sc a, x.wait = .remote (.atomic d k q sc a) →
            let t0 := if q = .seqCst then s.setClock u (s.clockOf u + 1) else s
            Wakes (.remoteReply u slot r) s (if orderAcqs q = true then t0.acquire u slot sc else t0) u slot (if k ≠ 1 then d else 0) r.value
              (L + if orderAcqs q = true then acqCost u sc else 0))
        ∧ (∀ d k a, x.wait = .remote (.fab d k a) →
            let t0 := if r.clock = 0 then s else s.setClock u (maxW (s.clockOf u) r.clock)
            Wakes (.remoteReply u slot r) s (if k ≠ 1 then t0.acquire u slot .domain else t0) u slot (if k ≠ 1 then d else 0) r.value
              (L + if k ≠ 1 then acqCost u .domain else 0))
        ∧ (∀ d w a, x.wait = .remote (.value d w a) → Wakes (.remoteReply u slot r) s s u slot d r.value L))

/-- The slot that began to wait first takes the oldest entry of its event queue, or the oldest message of its tag that no
earlier waiter matches, acquires at its scope (2 cycles if it is wider than CORE) and goes on with the word in gd; a
message is accepted when the inbox has a place, its sender ready no earlier than a mesh round trip after its issue;
the waiting EXIT of slot 0 ends the part when every helper is FREE; a core whose ended part has no operation
outstanding reports, its stores landed. At expiry an OPEN tile is refused and freed if two valid rows share an RMAP
value, is freed and counted if it is empty, and is otherwise sealed and posted if its queue has a place that nothing
waits for. The sealed tile that has waited longest enters its queue, and the SEAL that waits for it returns 0, its L
(R251) after that. A read of the counters in the same cycle finds them before the increment (R35). Time that passes
leaves no OPEN tile whose timer has reached 0. (That TIMED is cleared with the seal or release is the model's reading:
log entry 43.) (R28, R32, R33, R35, R38, R64, R157, R251, R257, R259, R260, R291) -/
def Obligations.WaitsAndTileEvents : Prop :=
  ∀ (s : State) (u slot : Nat),
    let c := s.core u
    let x := s.slotOf u slot
    let full := fun (v : W32) => if v = 0xFFFFFFFF then v else v + 1
    let freed := fun (b : Buffer) => { b with state := .free, timed := false, gen := b.gen + 1, holder := none, ticket := 0 }
    (∀ d n k e rest, x.wait = .waitq d n k → (∀ w ∈ c.eqWaiters n, k ≤ w.1) → mget [] c.eq n = e :: rest →
      Wakes (.waitqTake u slot) s ((s.setCore u { c with eq := mset [] c.eq n rest }).acquire u slot e.scope) u slot d e.word
        (6 + acqCost u e.scope))
    ∧ (∀ d t k i m, x.wait = .mrecv d t k → c.recvPlace t k = some i → c.inbox[i]? = some m →
      Wakes (.mrecvTake u slot) s ((s.setCore u { c with inbox := c.inbox.eraseIdx i }).acquire u slot m.scope) u slot d m.word
        (6 + acqCost u m.scope))
    ∧ (∀ target tag w sc k, x.wait = .msend target tag w sc k → (s.core target).inbox.length < 16 →
      Wakes (.msendAccept u slot) s ((s.setCore target { s.core target with
        inbox := (s.core target).inbox ++ [⟨w, tag, u, sc⟩] }).exchange u target) u slot 0 0 (max 1 (x.readyAt - s.cycle)))
    ∧ ((s.slotOf u 0).wait = .exit → s.helpersFree u = true → ∃ t, exec (.controlExitComplete u) s = .next t
      ∧ (t.slotOf u 0).st = .free ∧ (t.core u).ended = true ∧ t.mem = s.mem ∧ ∀ i, i ≠ 0 → t.slotOf u i = s.slotOf u i)
    ∧ (∀ k task, c.task = some k → s.boundTask k = some task → c.ended = true → s.opsDone u = true →
      ∃ t, exec (.partEndReport u) s = .next t ∧ (t.core u).ended = false
        ∧ t.boundTask k = some { task with reported := task.reported ++ [u] }
        ∧ (t.core u).fifo = [] ∧ (∀ ln, FifoEntry.line ln ∈ c.fifo → (mget {} (t.core u).l1 ln).dirty = 0) ∧ ∀ p ∈ t.posted, p.unit ≠ u)
    ∧ (∀ n cl b, let y := (s.pass n).buf cl b
      s.mgmt.tripped = false → y.state = .open_ → y.timed = true → (s.pass n).cycle < y.due)
    ∧ (∀ cl b, let y := s.buf cl b
      let at_ := fun (z : State) (now : Nat) => (z.cluster cl).counted now
      let q := (s.pressAt (2 * cl + y.mu.toNat)).queueOf y.queue.toNat
      (y.state = .open_ → y.timed = true → y.due ≤ s.cycle → ∃ t, exec (.tileTimerExpiry cl b) s = .next t ∧ t.mem = s.mem
        ∧ (y.sharesRmap = true → t.buf cl b = freed y ∧ (at_ t s.cycle).rcnt = (at_ s s.cycle).rcnt
            ∧ ∀ now, (s.cluster cl).countAt ≤ s.cycle → s.cycle < now → (at_ t now).rcnt = full (at_ s now).rcnt)
        ∧ (y.sharesRmap = false → y.vmask = 0 → t.buf cl b = freed y ∧ (at_ t s.cycle).ecnt = (at_ s s.cycle).ecnt
            ∧ ∀ now, (s.cluster cl).countAt ≤ s.cycle → s.cycle < now → (at_ t now).ecnt = full (at_ s now).ecnt)
        ∧ (y.sharesRmap = false → y.vmask ≠ 0 →
            let posts := q.length < 16 ∧ s.queueTickets cl y.mu.toNat y.queue.toNat = []
            (posts → t.buf cl b = { y with state := .queued, timed := false, ticket := 0 }
              ∧ (t.pressAt (2 * cl + y.mu.toNat)).queueOf y.queue.toNat = q ++ [(s.handleOf cl b, false)])
            ∧ (¬ posts → t.buf cl b = { y with state := .sealed, timed := false, ticket := 3 * s.cycle + 1 } ∧ t.presses = s.presses)))
      ∧ (∀ mu n k, leastTicket (sealTickets (s.cluster cl) mu n) = some (k, b) → s.hasPlace cl mu n = true →
          (∀ j ∈ s.queueTickets cl mu n, k ≤ j) → ∃ t, exec (.tilePosting cl mu n) s = .next t ∧ t.mem = s.mem
            ∧ t.buf cl b = { y with state := .queued, ticket := 0 }
            ∧ (t.pressAt (2 * cl + y.mu.toNat)).queueOf y.queue.toNat = q ++ [(s.handleOf cl b, false)]
            ∧ ∀ v i d, s.sealer cl b = some (v, i, d) → t.slotOf v i = (s.slotOf v i).ends d 0
              (s.cycle + if 1536 ≤ v then 24 else if v / 16 = cl then 4 else meshTrip (v / 16) cl)))

/-- The register armed first takes the oldest entry of its queue. A held instruction of a running press whose needs are
met leaves its record and, its checks passed, is performed with the operands and the guard it was held with (QREL
frees the tile and empties its register for the next beat); if a check fails the press faults with RES set. An illegal
group or a fetch outside instruction memory records code, place and offset in FCAUSE and FPC and drains the press.
STOPPING and a faulted press that have drained become STOPPED and FAULT, with nothing left to become visible, and
leave the event word for EVT. The oldest event word enters its queue when it has a place, but one of a fault of MU1
waits for that of a fault which MU0 raises in the same cycle for the same queue (R327, read as log entry 86 says). An
image that is done clears the busy state and stores its completion word last, with its status; a save leaves no tile
register, queue entry or held record, and one that meets a plane row in error writes no image. (CH and COUNT of that
word are free values, log entry 29; order of arming after a load, log entry 48; a plane in error, log entry 88.)
(R308, R309, R314, R317, R321, R322, R323, R327, R332, R357) -/
def Obligations.PressEvents : Prop :=
  ∀ (s : State) (p : Nat),
    let x := s.pressAt p
    let word := fun (code pc : Nat) => BitVec.ofNat 64 (code % 256 + p % 2 * 2 ^ 8 + p / 2 % 128 * 2 ^ 9 + pc % 2 ^ 16 * 2 ^ 16)
    let ended := fun (t : State) (st : PressState) (w : W64) (raised : Option Nat) =>
      (t.pressAt p).st = st ∧ (t.pressAt p).pend = [] ∧ (t.pressAt p).faulted = false ∧ (t.pressAt p).pc = x.pc
      ∧ (t.pressAt p).evPost = (if x.evt = 0 then x.evPost else x.evPost ++ [(w, x.evt, raised)])
      ∧ t.cores = s.cores ∧ ∀ q, q ≠ p → t.pressAt q = s.pressAt q
    (∀ q y h b rest, firstArmed (x.armed q) = some y → x.queueOf q = (h, b) :: rest →
      let ref := tileRef h
      let tb := s.buf ref.cl ref.b
      let snap : TileReg := { v := true, rdy := !x.running, handle := h, fmt := tb.fmt, haar := tb.haar, rows := tb.rows,
                              pitch := tb.pitch, vmask := tb.vmask, pos := tb.pos, rmap := tb.rmap }
      ∃ t, exec (.qpopArmedTake p q) s = .next t ∧ (t.pressAt p).queueOf q = rest ∧ (t.pressAt p).tileReg y = snap
        ∧ t.buf ref.cl ref.b = { tb with state := .held, holder := some p } ∧ t.cores = s.cores ∧ t.mem = s.mem)
    ∧ (∀ e k h, x.held.find? (fun r => r.1 == e.code) = some (k, h) → x.st = .run → x.faulted = false →
      let sp := heldSpec p h.instr
      let left := { s with press := p }.updPress p (fun y => { y with held := merase y.held e.code })
      s.canResume p h sp = true →
      (leastProblem (x.tileProblem sp.tile ++ sp.check (x.heldCtx h)) = none →
        exec (.heldInstructionResume p e) s = .next (left.perform sp (x.heldCtx h) h.guard))
      ∧ (∀ g y, h.instr = .qrel g y → h.guard = true → e = .q → (x.tileReg y.toNat).v = true →
          let r := tileRef (x.tileReg y.toNat).handle
          let tb := s.buf r.cl r.b
          ∃ t, exec (.heldInstructionResume p e) s = .next t ∧ (t.pressAt p).y = x.y
            ∧ (t.pressAt p).pend = x.pend ++ [(x.beat + 1, .gone y.toNat)]
            ∧ (t.pressAt p).held = merase x.held 5 ∧ t.cores = s.cores ∧ t.mem = s.mem
            ∧ (tb.gen = r.gen → (t.buf r.cl r.b).state = .free ∧ (t.buf r.cl r.b).gen = tb.gen + 1))
      ∧ (leastProblem (x.tileProblem sp.tile ++ sp.check (x.heldCtx h)) ≠ none → ∃ t, exec (.heldInstructionResume p e) s = .next t
          ∧ (t.pressAt p).faulted = true ∧ (t.pressAt p).fcause.getLsbD 11 = true ∧ (t.pressAt p).fpc = BitVec.ofNat 32 h.fpc))
    ∧ (x.st = .run ∨ x.st = .stopping → x.faulted = false →
      (∀ f : PressFaultRec, f.part = false →
        let s0 := if f.code = 7 then s.memError (imemBase p + f.fpc) else s
        exec (.illegalBundle p f) s = .next (s0.setPress p { x with
        fcause := BitVec.ofNat 32 (f.code % 256 + f.slot % 8 * 2 ^ 8 + (if f.res then 2 ^ 11 else 0) + f.fslip % 8 * 2 ^ 12
          + f.arg % 2 ^ 16 * 2 ^ 16)
        fpc := BitVec.ofNat 32 f.fpc, faulted := true, faultAt := x.cycle, issue := [], found := none, nextAt := x.beat + 1 }))
      ∧ ∀ fpc, exec (.pressFetchFault p fpc) s = .next (s.setPress p { x with
        fcause := 1, fpc := BitVec.ofNat 32 fpc, faulted := true, faultAt := x.cycle, issue := [], found := none, nextAt := x.beat + 1 }))
    ∧ (x.drained = true →
      (x.st = .stopping → x.faulted = false → x.issue = [] →
        ∃ t, exec (.pressStopped p) s = .next t ∧ ended t .stopped (word 0 x.pc) none)
      ∧ (x.faulted = true → ∃ t, exec (.pressFaultSettled p) s = .next t
          ∧ ended t .fault (word x.fcause.toNat x.fpc.toNat) (some x.faultAt) ∧ (t.pressAt p).fcause = x.fcause ∧ (t.pressAt p).fpc = x.fpc))
    ∧ (∀ w evt cyc rest u q, x.evPost = (w, evt, cyc) :: rest → s.pressTarget p evt = some (u, q) →
      let eq := mget [] (s.core u).eq q
      (p % 2 = 0 ∨ cyc = none → s.mu0First p (u, q) cyc = false)
      ∧ (∀ k w' evt', p % 2 = 1 → cyc = some k → (w', evt', some k) ∈ (s.pressAt (p - 1)).evPost →
        s.pressTarget (p - 1) evt' = some (u, q) → s.mu0First p (u, q) cyc = true)
      ∧ (s.mu0First p (u, q) cyc = true → exec (.pressEventPost p) s = .next s)
      ∧ (s.mu0First p (u, q) cyc = false → eq.length < 16 → ∃ t, exec (.pressEventPost p) s = .next t ∧ (t.pressAt p) = { x with evPost := rest }
        ∧ mget [] (t.core u).eq q = eq ++ [⟨w, .cluster⟩] ∧ (∀ v, v ≠ u → t.core v = s.core v) ∧ t.mem = s.mem))
    ∧ (∀ u n pages va cw q, s.resolve u cw 8 = some q → q.tile = false →
      (∀ t, x.busy = some (.save u n pages va cw) → s.planeBad p = none → s.pagesWrite pages va (pressImage s p) = .ok t →
        ∃ r, exec (.pressContextImageDone p) s = .next r ∧ r.pressAt p = { x with busy := none, y := [], q := [], held := [] }
          ∧ r.numAt q.key 8 % 2 ^ 8 = 1 ∧ r.numAt q.key 8 / 2 ^ 11 % 2 ^ 21 = 0
          ∧ (∀ a, a < q.key ∨ q.key + 8 ≤ a → r.byteAt a = t.byteAt a) ∧ r.cores = s.cores)
      ∧ (∀ key, x.busy = some (.save u n pages va cw) → s.planeBad p = some key →
        ∃ r, exec (.pressContextImageDone p) s = .next r ∧ r.pressAt p = { x with busy := none } ∧ r.numAt q.key 8 % 2 ^ 8 = 0x10
          ∧ (∀ a, a < q.key ∨ q.key + 8 ≤ a → r.byteAt a = s.byteAt a) ∧ r.cores = s.cores)
      ∧ (∀ t st, x.busy = some (.load u n pages va cw) → s.loadContext p pages va = .ok (t, st) →
        ∃ r, exec (.pressContextImageDone p) s = .next r ∧ r.pressAt p = { t.pressAt p with busy := none }
          ∧ r.numAt q.key 8 % 2 ^ 8 = st % 2 ^ 8 ∧ (∀ a, a < q.key ∨ q.key + 8 ≤ a → r.byteAt a = s.byteAt a) ∧ r.cores = s.cores))

/-- A queued command at the head of its channel starts with WP 0: CPY.LIN, TEN and TILE run, RBLK waits for a permit, KVG
and the moves for the Splice engine, WBLK runs or ends with 0x12, 0x11 or 0x14 as its tile is stale, not sealed, or
not a HAAR tile of rising RMAP. A delivery of CPY.LIN between local memories that do not overlap writes the next bytes
up to a 64-byte boundary of the destination, and nothing else, and advances WP; a command that CPY.ABORT has marked
ends there with status 5. A delivery of another command takes from its source (the box of CPY.TEN, the rows of
CPY.TILE, the header and rows of CPY.WBLK and CPY.RBLK, the records of CPY.KVG with zeros for pool pages, the old
frame of a move) the bytes of its next unit, all readable, and writes them to its destination: a line of a mesh range
or descriptor, a row of a tile with its position or RMAP, or not at all with status 0x12 or 0x11 if the tile is stale
or not OPEN. RBLK opens the lowest FREE buffer, takes a permit and reads the header of its block. A noted miss goes to
its event queue. A command that has ended, or CPY.LIN, TEN, TILE or WBLK with its last byte landed (status 1, COUNT
its bytes; without a seal or drop), stores its completion word (in tile data only of an OPEN buffer), leaves its
queue, and lets slots that wait for an entry try again. (R272, R277, R278, R279, R280, R282, R283, R284, R286, R287,
R289, R500) -/
def Obligations.CopyEvents : Prop :=
  ∀ (s : State) (cl ch : Nat) (c : CopyCmd) (rest : List CopyCmd), (s.chan cl ch).queue = c :: rest →
    let x := s.chan cl ch
    let len := c.reg 2 % 2 ^ 32
    (c.phase = .queued →
      let starts := fun (k : CopyCmd) => exec (.copyCommandStart cl ch) s = .next (s.setChan cl ch { x with wp := 0, queue := k :: rest })
      (c.fn = 0x12 ∨ c.fn = 0x13 ∨ c.fn = 0x14 → starts { c with phase := .running })
      ∧ (c.fn = 0x16 → starts { c with phase := .permit, place := if c.src.isSome then c.reg 0 / 2 ^ 16 % 2 ^ 48 else 0 })
      ∧ (c.fn = 0x17 ∨ c.fn = 0x18 ∨ c.fn = 0x19 → starts { c with phase := .request })
      ∧ (c.fn = 0x15 →
        let r := tileRef (c.opnd.truncate 32)
        let b := s.buf cl r.b
        let rising := ((onesAt b.vmask.toNat 64).map (fun i => (mget 0 b.rmap i).toNat)).Pairwise (· < ·)
        (b.gen ≠ r.gen → starts { c with phase := .ended, status := 0x12, count := 0 })
        ∧ (b.gen = r.gen → b.state = .free ∨ b.state = .open_ → starts { c with phase := .ended, status := 0x11, count := 0 })
        ∧ (b.gen = r.gen → b.state ≠ .free → b.state ≠ .open_ →
          (b.haar = false ∨ ¬ rising → starts { c with phase := .ended, status := 0x14, count := 0 })
          ∧ (b.haar = true → rising → ∃ k, starts k ∧ k.phase = .running ∧ k.tile = some (r.b, r.gen) ∧ k.ahead.length = 64
              ∧ k.place = 64 * b.pitch))))
    ∧ (∀ (p q : Place) (ahead : Nat), c.phase = .running → c.fn = 0x12 → c.src = none → c.dst = none → c.ahead = [] → c.halt = none → c.done < len →
      s.meshRange c.unit (c.reg 0) 0 = some p → s.meshRange c.unit (c.reg 1) 0 = some q → p.tile = false → q.tile = false →
      (p.key + len ≤ q.key ∨ q.key + len ≤ p.key) → (∀ j, j < len → s.bad (p.key + j) 1 = false) →
      let n := min (64 - (q.off + c.done) % 64) (len - c.done)
      ∃ t, exec (.copyDelivery cl ch ahead) s = .next t ∧ (t.chan cl ch).wp = BitVec.ofNat 40 (c.done + n)
        ∧ (∃ k, (t.chan cl ch).queue = k :: rest ∧ k.done = c.done + n ∧ (c.aborting = false → k.phase = .running)
            ∧ (c.aborting = true → k.phase = .ended ∧ k.status = 5))
        ∧ (∀ j, j < n → t.byteAt (q.key + c.done + j) = s.byteAt (p.key + c.done + j))
        ∧ (∀ a, a < q.key + c.done ∨ q.key + c.done + n ≤ a → t.byteAt a = s.byteAt a) ∧ t.cores = s.cores)
    ∧ (∀ (g : SpliceCfg) (j : Nat),
      (∀ d m, c.fn = 0x13 → s.tenEnds c = some (d, m) →
        s.streamAt c j = .ofKey (if c.reg 2 / 2 ^ 63 % 2 = 1 then m.key j
          else transIn d.pages (d.vbase + tenOffset c d (j / d.esz) + j % d.esz)))
      ∧ (∀ e, c.fn = 0x14 → s.endOf c c.src (c.reg 0) = some e →
        s.streamAt c j = .ofKey (e.key ((j / (len % 2 ^ 16) : Nat) * (BitVec.ofNat 64 (c.reg 3)).toInt + (j % (len % 2 ^ 16) : Nat))))
      ∧ (∀ b gen, c.fn = 0x15 → c.tile = some (b, gen) → 64 ≤ j → s.streamAt c j = .at (bufBase (c.unit / 16) b
          + ((onesAt c.mask.toNat 32)[(j - 64) / c.place]?.getD 0) * c.place + (j - 64) % c.place))
      ∧ (∀ d, c.fn = 0x16 → c.src = some d → s.streamAt c j = .ofKey (transIn d.pages (d.vbase + c.place + 64 + j)))
      ∧ (let rb := c.reg 4 / 2 ^ 16 % 2 ^ 16
         let t := c.reg 3 % 2 ^ 24 + j / rb
         ∀ q, c.fn = 0x17 → s.splice.cfg = some g → c.pins[t / g.p - c.reg 3 % 2 ^ 24 / g.p]? = some q →
           s.streamAt c j = if q.pool then .zero
             else .ofKey (transIn g.pages (g.frameAt false q.frame + t % g.p * g.rs + c.reg 4 % 2 ^ 16 + j % rb)))
      ∧ ∀ n old, c.fn = 0x18 ∨ c.fn = 0x19 → s.splice.cfg = some g → c.frames = some (n, old) →
        s.streamAt c j = .ofKey (transIn g.pages (g.frameAt (decide (c.fn = 0x18)) old + j)))
    ∧ (∀ (data : List Byte), c.phase = .running → c.halt = none → c.aborting = false → data ≠ [] → s.unitLen c = data.length →
      c.pos + data.length ≤ s.streamLen c →
      let byte := fun (j : Nat) => match s.streamAt c j with
        | .at k => if (2 ^ 56 ≤ k ∨ s.mapped k = true) ∧ s.bad k 1 = false then some (s.byteAt k) else none
        | .zero => some 0
        | .nowhere => none
      (∀ j, j < data.length → (if j < c.ahead.length then c.ahead[j]? else byte (c.pos + j)) = data[j]?) →
      let n := data.length
      let moved := fun (t : State) (k : CopyCmd) (wp : Nat) => exec (.copyDelivery cl ch 0) s =
        .next (t.setChan cl ch { t.chan cl ch with wp := BitVec.ofNat 40 wp, queue := k :: (t.chan cl ch).queue.tail })
      let k := { c with done := c.done + n, ahead := c.ahead.drop n }
      let refuses := fun (b : Nat) (gen : BitVec 8) =>
        let ends := fun (st : Nat) => ∃ t z, exec (.copyDelivery cl ch 0) s = .next t ∧ (t.chan cl ch).queue = z :: rest
          ∧ z.phase = .ended ∧ z.status = st ∧ t.mem = s.mem
        ((s.buf cl b).gen ≠ gen → ends 0x12) ∧ ((s.buf cl b).gen = gen → (s.buf cl b).state ≠ .open_ → ends 0x11)
      (∀ e t, c.fn = 0x15 → s.endOf c c.dst (c.reg 1) = some e → s.endWrite e c.done data = .ok (t, true) → moved t k (c.done + n))
      ∧ (∀ d m t, c.fn = 0x13 → s.tenEnds c = some (d, m) →
          (if c.reg 2 / 2 ^ 63 % 2 = 1 then s.landTen c d (c.done / d.esz) (chunksN d.esz (n / d.esz) data) else s.endWrite m c.done data)
            = .ok (t, true) → moved t k ((c.done + n) / d.esz * d.esz))
      ∧ (∀ e t, c.fn = 0x17 → s.endOf c none (c.reg 1) = some e → s.endWrite e c.done data = .ok (t, true) → c.pos + n < s.streamLen c →
          let y := { c with done := c.done + s.advance c n, ahead := c.ahead.drop n, noted := s.noteMiss c n }
          moved t y (s.wpAt c y.done))
      ∧ (∀ g f old t, c.fn = 0x18 ∨ c.fn = 0x19 → s.splice.cfg = some g → c.frames = some (f, old) →
          s.endWrite (.desc g.pages (g.frameAt (decide (c.fn = 0x19)) f)) c.done data = .ok (t, true) → moved t k (c.done + n))
      ∧ (c.fn = 0x14 →
          let r := tileRef (BitVec.ofNat 32 (c.reg 1))
          let row := c.reg 1 / 2 ^ 48 % 2 ^ 6 + c.done / (len % 2 ^ 16)
          let pos := c.reg 4 % 2 ^ 24 + c.done / (len % 2 ^ 16)
          let t := s.tileWrite cl r.b row (c.reg 1 / 2 ^ 32 % 2 ^ 16) data
          let y := t.buf cl r.b
          refuses r.b r.gen
          ∧ ((s.buf cl r.b).gen = r.gen → (s.buf cl r.b).state = .open_ →
            (c.reg 4 / 2 ^ 24 % 2 = 0 → moved t k (c.done + n))
            ∧ (c.reg 4 / 2 ^ 24 % 2 = 1 → pos < 2 ^ 24 → y.haar = false →
                moved (t.setBuf cl r.b { y with pos := mset 0 y.pos row (BitVec.ofNat 24 pos) }) k (c.done + n))))
      ∧ (∀ b gen, c.fn = 0x16 → c.tile = some (b, gen) →
          let t := s.tileWrite cl b c.row 0 data
          let y := t.buf cl b
          refuses b gen
          ∧ ((s.buf cl b).gen = gen → (s.buf cl b).state = .open_ → c.row + 1 < ones c.mask.toNat 32 →
            moved (t.setBuf cl b { y with rmap := mset 0 y.rmap c.row (BitVec.ofNat 5 ((onesAt c.mask.toNat 32)[c.row]?.getD 0)) })
              { k with row := c.row + 1 } (c.done + n))))
    ∧ (∀ (i : Nat) (bs : List Byte), bs ≠ [] →
      (∀ p : Place, p.tile = false → (p.off + i) % 64 + bs.length ≤ 64 → s.endWrite (.mesh p) i bs = .ok (s.put (p.key + i) bs, true))
      ∧ ∀ pages va pa, (va + i) % 64 + bs.length ≤ 64 → transIn pages (va + i) = some pa → s.mapped pa = true →
        s.endWrite (.desc pages va) i bs = .ok (s.enginePut pa bs, true))
    ∧ (∀ b d bs, c.phase = .permit → x.permits.length < c.reg 2 / 2 ^ 16 % 2 ^ 8 → s.freeBuf cl = some b → c.src = some d →
      s.pagesRead d.pages (d.vbase + c.place) 64 = .ok bs →
      let sh := shapeOf (c.reg 4 % 2 ^ 32)
      let v := leNat bs
      let m := v % 2 ^ 32
      m ≠ 0 → v / 2 ^ 56 % 16 = sh.fmt → v / 2 ^ 64 % 512 = sh.pitch → v / 2 ^ 32 % 2 ^ 24 % 32 = 0 →
      d.extent ≥ c.place + 64 + ones m 32 * (64 * sh.pitch) → ∃ t, exec (.rblkBlockStart cl ch) s = .next t
        ∧ (t.buf cl b).state = .open_ ∧ (t.buf cl b).haar = decide (sh.dom = 1) ∧ (t.buf cl b).gen = (s.buf cl b).gen
        ∧ (t.buf cl b).rows = sh.rows ∧ (t.buf cl b).pitch = sh.pitch ∧ (t.buf cl b).vmask = 0
        ∧ t.chan cl ch = { x with permits := x.permits ++ [(b, (s.buf cl b).gen)]
                                  queue := { c with tile := some (b, (s.buf cl b).gen), ahead := [], mask := BitVec.ofNat 32 m
                                                    row := 0, phase := .running, pos0 := v / 2 ^ 32 % 2 ^ 24 } :: rest }
        ∧ t.mem = s.mem ∧ t.cores = s.cores)
    ∧ (∀ page more u q, c.phase = .posting → c.noted = page :: more → s.evtTarget c.unit (c.reg 5) = some (u, q) →
      let eq := mget [] (s.core u).eq q
      eq.length < 16 → ∃ t, exec (.tierMissEventPost cl ch) s = .next t
        ∧ mget [] (t.core u).eq q = eq ++ [⟨BitVec.ofNat 64 (page % 2 ^ 32 + ch * 2 ^ 32 + c.seq % 2 ^ 16 * 2 ^ 48), .device⟩]
        ∧ (t.chan cl ch).queue = { c with noted := more, phase := if more.isEmpty then .ended else .posting } :: rest
        ∧ t.mem = s.mem ∧ ∀ v, v ≠ u → t.core v = s.core v)
    ∧ (let ends := fun (status count : Nat) => ∃ t, exec (.copyCommandComplete cl ch) s = .next t ∧ (t.chan cl ch).queue = rest
        ∧ (c.reg 6 = 0 → t.mem = s.mem)
        ∧ (∀ q, c.reg 6 ≠ 0 → s.resolve c.unit (BitVec.ofNat 64 (c.reg 6)) 8 = some q → q.tile = false →
            t.numAt q.key 8 = (status + ch * 2 ^ 8 + c.seq % 2 ^ 16 * 2 ^ 16 + count % 2 ^ 32 * 2 ^ 32) % 2 ^ 64
            ∧ ∀ a, a < q.key ∨ q.key + 8 ≤ a → t.byteAt a = s.byteAt a)
        ∧ (∀ q, c.reg 6 ≠ 0 → s.resolve c.unit (BitVec.ofNat 64 (c.reg 6)) 8 = some q → q.tile = true →
            ((s.buf q.cl q.buf).state = .open_ → (∀ a, a < q.key ∨ q.key + 8 ≤ a → t.byteAt a = s.byteAt a)
              ∧ t.numAt q.key 8 = (status + ch * 2 ^ 8 + c.seq % 2 ^ 16 * 2 ^ 16 + count % 2 ^ 32 * 2 ^ 32) % 2 ^ 64)
            ∧ ((s.buf q.cl q.buf).state ≠ .open_ → t.mem = s.mem))
        ∧ (∀ u i, (s.slotOf u i).wait = .queue → t.slotOf u i = { s.slotOf u i with wait := .none, st := .run })
        ∧ (∀ u i, (s.slotOf u i).wait ≠ .queue → t.slotOf u i = s.slotOf u i)
      (c.phase = .ended → c.fn = 0x12 ∨ c.fn = 0x13 ∨ c.fn = 0x14 ∨ c.fn = 0x15 ∨ c.fn = 0x16 → ends c.status c.count)
      ∧ (c.phase = .running → c.fn = 0x12 ∨ c.fn = 0x13 ∨ (c.fn = 0x14 ∧ c.sealed = false) ∨ (c.fn = 0x15 ∧ c.drop = false) →
          s.streamLen c ≤ c.done → ends 1 c.done))

/-- The head command, with no request to serve and none waiting, or waiting and resumed, runs its items; where an item
ends it with a status, the completion word (STATUS, SERIAL, VAL) is stored last, after KVAPPEND's counts, it leaves
the queue and slots that wait for an entry try again; where an item needs a MOVING page it waits there. The items of
each command do what its rule says: KVMATCH walks the tree and makes a sequence of the pages matched, KVINSERT follows
or creates nodes, KVAPPEND allocates, copies or keeps the last page and writes each record and the header, KVREF
shares the pages of a new sequence, KVUNREF drops them (prune: the oldest leaf), KVPIN and KVUNPIN add and drop pins,
KVBT and KVTIER list entries. A gather's request takes a pin, a move's the lowest free frame (the model's reading of
R452), marking its page MOVING. (Order of the writes: log entry 68.) (R284, R286, R435, R437, R439, R440, R441, R442,
R443, R444, R445, R447) -/
def Obligations.SpliceEvents : Prop :=
  ∀ (s : State) (g : SpliceCfg), s.splice.cfg = some g →
    (∀ (i : Instr) (c0 : SpliceCmd) (n : Nat) (f : Nat → State × SpliceCmd), s.splice.queue.head? = some c0 → f 0 = (s, c0) →
      (i = .spliceCommandExecute ∧ s.splice.waiting = false ∧ s.requestWaits = false) ∨ (i = .spliceMovingResume ∧ s.splice.waiting = true) →
      n < 2 ^ 34 → (∀ j, j < n → kvItem g (f j).1 (f j).2 = .ok (f (j + 1))) →
      let c := (f n).2
      let counted := c.fn = 3 ∧ c.step ≠ 0
      (∀ u, kvItem g (f n).1 c = .error (.wait u) →
        exec i s = .next { u with splice := { u.splice with waiting := true, queue := c :: u.splice.queue.tail } })
      ∧ (∀ u st val v t1 t2, kvItem g (f n).1 c = .error (.stop u st val) → (val = some v ∨ (val = none ∧ u.stopVal g c = some v)) →
        (if counted then u.pagesWrite g.pages (g.sbase + c.arg + 16) (leBytes 8 (c.acc1 + c.acc2 * 2 ^ 32)) else .ok u) = .ok t1 →
        t1.pagesWrite g.pages (g.sbase + c.arg) (leBytes 8 (st + c.serial.toNat % 2 ^ 24 * 2 ^ 8 + v % 2 ^ 32 * 2 ^ 32)) = .ok t2 →
        exec i s = .next (State.wakeQueues { t2 with splice := { t2.splice with queue := t2.splice.queue.tail, waiting := false } })))
    ∧ (∀ (c : SpliceCmd) (v len npg : Nat), c.step = 0 → s.kvArg g c 1 = .ok v → s.kvLive g (v % 2 ^ 32) = .ok (len, npg) →
      (c.fn = 3 ∨ c.fn = 8 → s.stopVal g c = some len)) ∧ (∀ c : SpliceCmd, c.fn = 2 ∨ c.fn = 5 ∨ c.fn = 9 → s.stopVal g c = some c.acc1)
    ∧ (∀ (c : SpliceCmd),
      let i := c.step - 1
      let room := fun (n : Nat) => c.arg + 64 + n ≤ 4096 * g.ssize
      let goes := fun (t : State) (k : SpliceCmd) => kvItem g s c = .ok (t, { k with step := c.step + 1 })
      let done := fun (t : State) (v : Nat) => kvItem g s c = .error (.stop t 1 (some v))
      let stops := fun (t : State) (st : Nat) => kvItem g s c = .error (.stop t st none)
      let takes := fun (t : State) (q : Nat) => t.updSplice (fun x => { x with seqsT := insertRising q x.seqsT })
      let a1 := fun (v : Nat) => s.kvArg g c 1 = .ok v
      let a2 := fun (v : Nat) => s.kvArg g c 2 = .ok v
      (c.fn = 1 →
        (c.step = 0 → ∀ n path t, a1 n → 1 ≤ n → n ≤ 2 ^ 24 → room (4 * n) → s.kvWalk g c (min (n / g.p) g.maxp) 0 0 = .ok (path, t) →
          (c.opt = true → done t path.length)
          ∧ (c.opt = false → lowestFree t.splice.seqsT g.nseq = none → kvItem g s c = .error (.stop t 0x20 (some path.length)))
          ∧ (∀ q u, c.opt = false → lowestFree t.splice.seqsT g.nseq = some q →
            (takes t q).kvSetHead g q (path.length * g.p) path.length = .ok u → goes u { c with acc1 := q, args := path }))
        ∧ (0 < c.step → i < c.args.length → ∀ page d s1 s2 s3, s.kvNum g (g.nodeAt (c.argN i) + 4) 4 = .ok page →
          s.kvNeed g page = .ok d → s.kvPut g (g.btAt c.acc1 i) 4 page = .ok s1 → s1.kvSetDir g page (d.setRef (d.ref + 1)) = .ok s2 →
          s2.kvPut g (g.nodeAt (c.argN i) + 16) 8 c.serial.toNat = .ok s3 → goes s3 c)
        ∧ (0 < c.step → c.args.length ≤ i → ∀ t, s.kvPut g (g.sbase + c.arg + 16) 8 c.acc1 = .ok t → done t c.args.length))
      ∧ (c.fn = 2 →
        (c.step = 0 → ∀ v len npg, a1 v → v < 2 ^ 57 → s.kvLive g (v % 2 ^ 32) = .ok (len, npg) → v / 2 ^ 32 % 2 ^ 25 ≤ len →
          room (4 * (v / 2 ^ 32 % 2 ^ 25)) → goes s { c with args := [v % 2 ^ 32, v / 2 ^ 32 % 2 ^ 25] })
        ∧ (∀ q n key, 0 < c.step → c.args = [q, n] → i < n / g.p → s.kvKey g c i = .ok key →
          (∀ m t u, s.kvChild g c.cur key = .ok (some m, t) → t.kvPut g (g.nodeAt m + 16) 8 c.serial.toNat = .ok u →
            goes u { c with cur := m })
          ∧ (∀ t page d, s.kvChild g c.cur key = .ok (none, t) → t.kvBt g q i = .ok page → t.kvDir g page = .ok d →
            (d.tree = true → stops t 0x15)
            ∧ (d.tree = false → g.nodes ≤ t.splice.nodesT.length → stops t 0x23)
            ∧ (d.tree = false → t.splice.nodesT.length < g.nodes → kvItem g s c = .ok (t, { c with args := [q, n, page] }))))
        ∧ (∀ q n page d key m u v, 0 < c.step → c.args = [q, n, page] → s.kvNeed g page = .ok d → s.kvKey g c i = .ok key →
          s.kvCreate g c.cur page key c.serial.toNat = .ok (m, u) →
          u.kvSetDir g page ((d.setNode (some m)).setRef (d.ref + 1)) = .ok v →
          goes v { c with args := [q, n], cur := m, acc1 := c.acc1 + 1 })
        ∧ (∀ q n, 0 < c.step → c.args = [q, n] → n / g.p ≤ i → done s c.acc1))
      ∧ (c.fn = 3 →
        (c.step = 0 → ∀ v len npg, a1 v → v < 2 ^ 57 →
          let q := v % 2 ^ 32
          let k := v / 2 ^ 32 % 2 ^ 25
          1 ≤ k → s.kvLive g q = .ok (len, npg) → len + k ≤ 2 ^ 24 → (len + k + g.p - 1) / g.p ≤ g.maxp → room (k * g.rs) →
          goes s { c with args := [q, k], cur := len })
        ∧ (0 < c.step → let j := (c.step - 1) / 2
          let q := c.argN 0
          let t := c.cur + j
          (c.argN 1 ≤ j → done s t)
          ∧ (j < c.argN 1 → c.step % 2 = 1 →
            (t % g.p = 0 → ∀ n u v, s.kvAlloc g = .ok (n, u) → u.kvPut g (g.btAt q (t / g.p)) 4 n = .ok v →
              goes v { c with acc2 := c.acc2 + 1 })
            ∧ (t % g.p ≠ 0 → ∀ n d, s.kvBt g q (t / g.p) = .ok n → s.kvNeed g n = .ok d →
              (d.ref ≤ 1 → d.tier = true → stops s 0x22) ∧ (d.ref ≤ 1 → d.tier = false → goes s c)
              ∧ (1 < d.ref → ∀ m u e bs s1 s2 s3, s.kvAlloc g = .ok (m, u) → u.kvDir g m = .ok e →
                u.kvBytes g (g.frameAt d.tier d.frame) g.f = .ok bs → u.kvPutBytes g (g.frameAt false e.frame) bs = .ok s1 →
                s1.kvSetDir g n (d.setRef (d.ref - 1)) = .ok s2 → s2.kvPut g (g.btAt q (t / g.p)) 4 m = .ok s3 →
                goes s3 { c with acc1 := c.acc1 + 1 })))
          ∧ (j < c.argN 1 → c.step % 2 = 0 → ∀ n d bs s1 s2, s.kvBt g q (t / g.p) = .ok n → s.kvNeed g n = .ok d →
            s.kvBytes g (g.sbase + c.arg + 64 + j * g.rs) g.rs = .ok bs →
            s.kvPutBytes g (g.frameAt d.tier d.frame + t % g.p * g.rs) bs = .ok s1 →
            s1.kvSetHead g q (t + 1) (t / g.p + 1) = .ok s2 → goes s2 c)))
      ∧ (c.fn = 4 →
        (c.step = 0 → ∀ v len npg, a1 v → v < 2 ^ 32 → s.kvLive g v = .ok (len, npg) →
          (lowestFree s.splice.seqsT g.nseq = none → stops s 0x20)
          ∧ ∀ q u, lowestFree s.splice.seqsT g.nseq = some q → (takes s q).kvSetHead g q len npg = .ok u →
            goes u { c with args := [v, q, npg] })
        ∧ (0 < c.step → i < c.argN 2 → ∀ n d s1 s2, s.kvBt g (c.argN 0) i = .ok n → s.kvNeed g n = .ok d →
          s.kvPut g (g.btAt (c.argN 1) i) 4 n = .ok s1 → s1.kvSetDir g n (d.setRef (d.ref + 1)) = .ok s2 → goes s2 c)
        ∧ (0 < c.step → c.argN 2 ≤ i → done s (c.argN 1)))
      ∧ (c.fn = 5 → c.opt = true →
        (c.step = 0 → ∀ v, a1 v → v < 2 ^ 32 → goes s { c with args := [v] })
        ∧ (0 < c.step → c.argN 0 ≤ c.acc1 ∨ s.kvLeaf g s.splice.nodesT none = .ok none → done s c.acc1)
        ∧ (0 < c.step → c.acc1 < c.argN 0 → ∀ lru n page d t v t1 t3, s.kvLeaf g s.splice.nodesT none = .ok (some (lru, n, page)) →
          s.kvNeed g page = .ok d → (s.touchNode g n).kvUnlink g n = .ok t → t.kvNum g (g.nodeAt n + 24) 8 = .ok v →
          t.kvPut g (g.nodeAt n + 24) 8 (v - v % 2) = .ok t1 →
          (t1.updSplice (fun x => { x with nodesT := x.nodesT.filter (fun k => k != n) })).kvRefZero g page (d.setNode none) = .ok t3 →
          goes t3 { c with acc1 := c.acc1 + 1 }))
      ∧ (c.fn = 6 →
        (c.step = 0 → ∀ q v len npg, a1 q → a2 v → q < 2 ^ 32 → v < 2 ^ 49 →
          let t0 := v % 2 ^ 24
          let m := v / 2 ^ 24 % 2 ^ 25
          let last := (t0 + m - 1) / g.p
          1 ≤ m → s.kvLive g q = .ok (len, npg) → t0 + m ≤ len → room (8 * (last - t0 / g.p + 1)) →
          (s.freePin = none → stops s 0x24)
          ∧ ∀ id, s.freePin = some id → goes (s.updSplice (fun x => { x with pins := mins (merase x.pins id) id [] }))
              { c with args := [q, t0 / g.p, last, id] })
        ∧ (0 < c.step → c.argN 1 + i ≤ c.argN 2 → ∀ n d t u, s.kvBt g (c.argN 0) (c.argN 1 + i) = .ok n → s.kvNeed g n = .ok d →
          s.kvAddPin g (c.argN 3) n d = .ok t →
          t.kvOut g c (8 * i) 8 (n + (if d.tier then 2 ^ 32 else 0) + d.frame * 2 ^ 33) = .ok u → goes u c)
        ∧ (0 < c.step → c.argN 2 < c.argN 1 + i → done s (c.argN 3)))
      ∧ (c.fn = 7 →
        (c.step = 0 → ∀ v, a1 v → v < 2 ^ 12 →
          (s.splice.pins.any (fun e => e.1 == v) = false → stops s 0x15)
          ∧ (s.splice.pins.any (fun e => e.1 == v) = true → goes s { c with args := [v] }))
        ∧ (0 < c.step → mget [] s.splice.pins (c.argN 0) = [] →
          done (s.updSplice (fun y => { y with pins := merase y.pins (c.argN 0) })) 0)
        ∧ (0 < c.step → ∀ x rest d u, mget [] s.splice.pins (c.argN 0) = x :: rest → s.kvNeed g x.page = .ok d →
          (s.updSplice (fun y => ({ y with pins := mins (merase y.pins (c.argN 0)) (c.argN 0) rest }).settle)).kvDropPin g x.page d = .ok u →
          goes u c))
      ∧ (c.fn = 8 →
        (c.step = 0 → ∀ v w len npg, a1 v → a2 w → v < 2 ^ 56 → w < 2 ^ 32 → s.kvLive g (v % 2 ^ 32) = .ok (len, npg) → w ≤ npg →
          let k := min (v / 2 ^ 32 % 2 ^ 24) (npg - w)
          room (8 * k) → goes s { c with args := [v % 2 ^ 32, w, k, len] })
        ∧ (0 < c.step → i < c.argN 2 → ∀ n d t, s.kvBt g (c.argN 0) (c.argN 1 + i) = .ok n → s.kvNeed g n = .ok d →
          s.kvOut g c (8 * i) 8 (n + (if d.tier then 2 ^ 32 else 0) + (if d.tree then 2 ^ 33 else 0) + min d.ref 0xFFFFFF * 2 ^ 40)
            = .ok t → goes t c)
        ∧ (0 < c.step → c.argN 2 ≤ i → done s (c.argN 3)))
      ∧ (c.fn = 9 →
        (c.step = 0 → ∀ v len npg k, a1 v → v < 2 ^ 32 → s.kvLive g v = .ok (len, npg) → s.kvPoolPages g v npg 0 = .ok k → room (4 * k) →
          goes s { c with args := [v, npg] })
        ∧ (0 < c.step → i < c.argN 1 → ∀ n d, s.kvBt g (c.argN 0) i = .ok n → s.kvNeed g n = .ok d →
          (d.tier = false → goes s c)
          ∧ ∀ t, d.tier = true → room (4 * (c.acc1 + 1)) → s.kvOut g c (4 * c.acc1) 4 i = .ok t → goes t { c with acc1 := c.acc1 + 1 })
        ∧ (0 < c.step → c.argN 1 ≤ i → done s c.acc1)))
    ∧ (∀ (c : SpliceCmd) (q : Nat), s.splice.queue.head? = some c → c.fn = 5 → c.opt = false →
      let word := fun (val : Nat) => leBytes 8 (1 + c.serial.toNat % 2 ^ 24 * 2 ^ 8 + val % 2 ^ 32 * 2 ^ 32)
      let frees := fun (i : Instr) (t : State) (val : Nat) => ∀ h t1 t2, t.kvNum g (g.seqAt q) 8 = .ok h →
        t.pagesWrite g.pages (g.seqAt q) (leBytes 8 (h - h % 4)) = .ok t1 →
        (t1.updSplice (fun x => { x with seqsT := x.seqsT.filter (fun k => k != q) })).pagesWrite g.pages (g.sbase + c.arg) (word val)
          = .ok t2 →
        exec i s = .next ((t2.updSplice (fun x => { x with queue := x.queue.tail, waiting := false })).wakeQueues)
      (∀ len, s.splice.waiting = false → s.requestWaits = false → c.step = 0 → c.acc1 = 0 → s.kvArg g c 1 = .ok q → q < 2 ^ 32 →
        s.kvLive g q = .ok (len, 0) → frees .spliceCommandExecute s 0)
      ∧ (∀ npg n d t z, s.splice.waiting = true → c.args = [q, npg + 1] → c.step = npg + 1 → s.kvBt g q npg = .ok n →
        s.kvNeed g n = .ok d → s.kvDropRef g n d = .ok (t, z) →
        frees .spliceMovingResume t (c.acc1 + if z then 1 else 0)))
    ∧ (∀ (cl ch : Nat) (c : CopyCmd) (rest : List CopyCmd) (d : Dir) (n : Nat) (t : State), (s.chan cl ch).queue = c :: rest →
      s.splice.waiting = false → c.phase = .request → (c.fn = 0x18 ∨ c.fn = 0x19) →
      let page := c.opnd.toNat % 2 ^ 32
      let pool := decide (c.fn = 0x19)
      page < g.npage → s.kvDir g page = .ok d → d.raw % 4 = 1 → d.tier ≠ pool →
      lowestFree (if pool then s.splice.qframesT else s.splice.hframesT) (if pool then g.qfr else g.hfr) = some n →
      s.pagesWrite g.pages (g.dirAt page) (leBytes 32 (d.raw + 1)) = .ok t →
      ∃ u, exec (.pinRequest cl ch) s = .next u ∧ u.mem = t.mem ∧ u.splice.moves = s.splice.moves ++ [⟨page, pool, n, d.frame, cl, ch⟩]
        ∧ n ∈ (if pool then u.splice.qframesT else u.splice.hframesT)
        ∧ (u.chan cl ch).queue = { c with phase := .running, place := page, frames := some (n, d.frame) } :: rest)
    ∧ (∀ (cl ch : Nat) (c : CopyCmd) (rest : List CopyCmd), (s.chan cl ch).queue = c :: rest → s.splice.waiting = false →
      c.phase = .request → c.fn = 0x17 → ∀ len npg,
      let t0 := c.reg 3 % 2 ^ 24
      let m := c.reg 3 / 2 ^ 24 % 2 ^ 25
      let q := c.reg 0 % 2 ^ 32
      s.kvLive g q = .ok (len, npg) →
      (len < t0 + m → exec (.pinRequest cl ch) s = .next (s.setChan cl ch { s.chan cl ch with
        queue := { c with phase := .ended, status := 0x15, count := 0 } :: rest }))
      ∧ (t0 + m ≤ len → s.freePin = none → exec (.pinRequest cl ch) s = .next s)
      ∧ ∀ id t, t0 + m ≤ len → s.freePin = some id → c.reg 4 % 2 ^ 16 + c.reg 4 / 2 ^ 16 % 2 ^ 16 ≤ g.rs →
        s.kvPinPages g id q ((t0 + m - 1) / g.p - t0 / g.p + 1) (t0 / g.p) = .ok t →
        exec (.pinRequest cl ch) s = .next (t.setChan cl ch { t.chan cl ch with
          queue := { c with phase := .running, place := id + 1, pins := mget [] t.splice.pins id } :: (t.chan cl ch).queue.tail }))

/-- The oldest transfer or seal of a context, not held behind earlier commands of its strand or of its context that write
to the same device, ends as it is performed: its completion word is stored and it leaves the queue; a seal on this
device of an OPEN tile that can be sealed ends with DONE. A request of another member device to a mesh place of this
device is performed and answered, and one of a device that is no member does nothing. An all-reduce with every
contribution of its members present stores the combined elements and ends with DONE and the number of members, and
after its timeout with 0x1B. A retry counts; the loss of a lane leaves 4 lanes; a link that goes down takes no
traffic, the lost devices have no route and commands to them end; a link that comes up carries traffic; Port B goes
down and comes up with its decoders, all inside the 16 TiB of the pool. (Order within a context, log entry 57; links
after reset, 58; COUNT of an all-reduce that failed, 59; the moment of a time-out, 60.) (R404, R408, R414, R415, R418,
R419, R420, R421, R422, R423, R424, R485) -/
def Obligations.FabricEvents : Prop :=
  ∀ (s : State) (u : Nat) (ctx : Nat),
    let ends := fun (i : Instr) (t : State) (v c : Nat) (k : FabCmd) (status flags count : Nat) => ∃ r, exec i s = .next r
      ∧ (r.ctx v c).queue = (s.ctx v c).queue.filter (fun e => e != k) ∧ r.outbox = t.outbox
      ∧ (k.cw = 0 → r.mem = t.mem)
      ∧ ∀ q, k.cw ≠ 0 → s.resolve v k.cw 8 = some q → q.tile = false →
          r.numAt q.key 8 = status + c % 4 * 2 ^ 8 + flags % 32 * 2 ^ 11 + k.seq % 2 ^ 16 * 2 ^ 16 + count % 2 ^ 32 * 2 ^ 32
          ∧ ∀ a, a < q.key ∨ q.key + 8 ≤ a → r.byteAt a = t.byteAt a
    (∀ (k : FabCmd) (r : RemoteReply), (s.ctx u ctx).queue.find? (fun e => decide (e.fn ≠ 0x15)) = some k →
      s.fabBehind u ctx k = false →
      (∀ z, k.fn ≠ 0x14 → k.sealed = false → (s.cmdDev u k = some s.devNum ∨ fitsReply k r = true) → s.runFab u k r = .ok z →
        z.s.cores = s.cores → z.s.mgmt.devnum = s.mgmt.devnum → z.status < 256 → ends (.fabCommandComplete u ctx r) z.s u ctx k z.status 0 z.count)
      ∧ (k.fn = 0x14 → k.noWin = false → (tileRef (k.opnd.truncate 32)).dev = s.devNum → s.fabPending u k.slot s.devNum k.order = false →
        let h := tileRef (k.opnd.truncate 32)
        let b := s.buf h.cl h.b
        h.cl ≤ 95 → h.b ≤ 383 → b.gen = h.gen → b.state = .open_ → b.sharesRmap = false → b.vmask ≠ 0 →
        ends (.fabCommandComplete u ctx r) s u ctx k 1 0 0
        ∧ ∃ t, exec (.fabCommandComplete u ctx r) s = .next t
            ∧ ((t.buf h.cl h.b).state = .sealed ∨ (t.buf h.cl h.b).state = .queued)))
    ∧ (∀ (dev : Nat) (ep : W64) (p : Place), s.mgmt.run = true → dev ≠ s.devNum →
      let answers := fun (q : RemoteRequest) (t : State) (v : W64) (data : List Byte) (n : Nat) (clock : W64) =>
        exec (.fabRemoteRequest q) s =
          .next (if s.member dev then { t with outbox := t.outbox ++ [.reply dev ⟨.done, v, data, n, clock⟩] } else s)
      (s.resolve 0 ep 1 = some p → p.dev = s.devNum → p.tile = false →
        (∀ n, p.off + n ≤ 0x10000 → (∀ j, j < n → s.bad (p.key + j) 1 = false) →
          answers (.read dev ep false n) s 0 (s.bytesAt p.key n) n 0)
        ∧ (∀ bs : List Byte, bs.length ≤ 64 - p.off % 64 → bs ≠ [] → p.off + bs.length ≤ 0x10000 →
          answers (.write dev ep false 1 bs.length 0 bs) (s.put p.key bs) 0 [] bs.length 0))
      ∧ (∀ core eq w clock, let old := mget [] (s.core core).eq (eq % 4)
        let t := s.setCore core { s.core core with eq := mset [] (s.core core).eq (eq % 4) (old ++ [⟨w, .domain⟩]) }
        old.length < 16 → answers (.post dev core eq w clock) (t.setClock core (maxW (t.clockOf core) clock)) 1 [] 0 0)
      ∧ (∀ code z n m clock, s.resolve 0 ep z.bytes = some p → p.dev = s.devNum → p.tile = false →
        (code ≠ 1 → s.bad p.key z.bytes = false) →
        answers (.atomic dev ep false code z n m clock)
          (match aopValue code z (s.numAt p.key z.bytes) n.toNat m.toNat with | some v => s.put p.key (leBytes z.bytes v) | none => s)
          (BitVec.ofNat 64 (s.numAt p.key z.bytes)) [] 0 0))
    ∧ (∀ (g : Nat) (others : List Contribution) (i : Instance_) (k : FabCmd), s.aredOldest g = some (i, k) → s.fabBehind i.unit i.ctx k = false →
      let gr := s.group g
      let op := aredOp k.opnd.toNat
      let n := aredCount k.opnd.toNat
      let own : Contribution := { dev := s.devNum, op := op, count := n, members := gr.members, data := k.data }
      let want := (onesAt gr.members.toNat 256).filter (fun d => decide (d ≠ s.devNum))
      let all_ := rankOrder own others
      (all_.length = want.length + 1 → others.length = want.length → (∀ c ∈ others, c.dev ∈ want) →
        (∀ c ∈ others, c.op = op ∧ c.count = n ∧ c.members = gr.members) →
        (op = 9 → ends (.aredInstanceComplete g others) s i.unit i.ctx k 1 0 (want.length + 1))
        ∧ (∀ p, op < 9 → s.resolve i.unit k.rem 1 = some p → p.tile = false → 1 ≤ n → n ≤ 64 → p.off % 64 + n * aredBytes op ≤ 64 →
          let r := aredResult op n (all_.map (fun c => c.data))
          ends (.aredInstanceComplete g others) (s.put p.key (r.1.flatMap (fun e => leBytes (aredBytes op) e.toNat))) i.unit i.ctx k
            1 (r.2.toNat % 32) (want.length + 1)))
      ∧ (gr.tmo ≠ 0 → ends (.aredTimeout g) s i.unit i.ctx k 0x1B 0 (ones gr.members.toNat 256)))
    ∧ (∀ l, l < 16 → let old := s.link l
      (2 ≤ old.state → exec (.flitCrcRetry l) s = .next (s.setLink l { old with retry := if old.retry < 0xFFFF then old.retry + 1 else old.retry })
        ∧ exec (.linkLaneLoss l) s = .next (s.setLink l { old with
            state := 3, lanes := min old.lanes 4, ldown := if old.ldown < 0xFF then old.ldown + 1 else old.ldown }))
      ∧ (∀ lost, ∃ t, exec (.linkDown l lost) s = .next t ∧ t.link l = { old with state := 0, lanes := 0 }
          ∧ (∀ m, m ≠ l → t.link m = s.link m) ∧ (∀ d ∈ lost, d ≠ s.devNum → d ∈ t.fabric.noRoute)
          ∧ (∀ d ∈ s.fabric.noRoute, d ∈ t.fabric.noRoute)
          ∧ ∀ v c k, (v, c, k) ∈ ({ s with fabric := t.fabric } : State).cutOff → k ∉ (t.ctx v c).queue)
      ∧ ((mget [] s.mgmt.retrains l).length < 3 → exec (.linkUp l) s = .next
          { s.setLink l { old with state := 2, lanes := 8 } with fabric := { (s.setLink l { old with state := 2, lanes := 8 }).fabric with noRoute := [] } }))
    ∧ exec .portBDown s = .next { s with fabric := { s.fabric with portB := 0 } }
    ∧ (∀ hdm : List (W64 × W64), s.mgmt.bootst = .ready → hdm.length ≤ 16 → hdm.all hdmFits = true →
      ∃ t, exec (.portBUp hdm) s = .next t ∧ t = { s with fabric := { s.fabric with portB := 2 }, mgmt := { s.mgmt with hdm := t.mgmt.hdm } }
        ∧ ∀ i, mget (0, 0) t.mgmt.hdm i = hdm[i]?.getD (0, 0))
    ∧ (∀ e : W64 × W64, hdmFits e = true → e.1.toNat % 2 = 1 →
      0x100000000000 ≤ e.1.toNat ∧ e.1.toNat / 2 ^ 28 * 2 ^ 28 + e.2.toNat % 2 ^ 52 ≤ 0x200000000000)

/-- On a running device the head record of an enabled queue without a cause becomes its admitted record, with a WAIT it
parks (its cell, with a count, armed), with a cause it is rejected and counted. A ready task that inherits nothing
joins the run list of its home core if it has room; one that inherits is counted late. The candidate of least level is
selected; one past its deadline is counted late. A selected task with all that it needs, in time, with no shape record
and an image that passes its checks, is bound: each core has its task, slot 0 runs from the entry with the arguments
in g2 to g5; a bad image rejects it. Pre-emption chooses every blocker or none; a victim's cores stop their slots,
then its operations complete and the sealed tiles aimed at its presses are posted (log entry 99), then its presses
stop, and then its cores and slots are free; restore gives the task its cores and presses again, removed ones too. A
task whose parts have all reported, its presses idle, ends with cores and presses free; one with a halted slot stops
its slots, then its presses, which are reset once each, and ends so too. Images are looked at as log entries 38 and 82
say, errors are reported as entry 37 says, and cells and restored presses are as entries 61, 63 and 81 say: the
model's choices. (R291, R459, R461, R462, R464, R466, R467, R471, R472, R474, R476, R477) -/
def Obligations.DistributorEvents : Prop :=
  ∀ (s : State), s.alive = true →
    let now := s.time141 / 141
    let sat := fun (v : W32) => if v = 0xFFFFFFFF then v else v + 1
    (∀ q r, let x := s.queue q
      let y := { x with head := x.head + 1, parkw := false }
      x.conf = true → x.en = true → x.unread ≠ 0 → x.adm = none → s.readRecord x x.head.toNat = some r →
      (s.causes r x.supok = 0 → r.wait = false → ∃ t, exec (.recordAdmit q) s = .next t
          ∧ t = { s.setQueue q { y with adm := some (r, now) } with mgmt := t.mgmt })
      ∧ (s.causes r x.supok = 0 → r.wait = true → ∀ n, s.freeEntry = some n →
          let v := s.numAt (refKey r.wcell) 8
          v % 2 ^ 32 ≠ 0 → ∃ t, exec (.recordAdmit q) s = .next t ∧ t.queue q = y
            ∧ t.numAt (refKey r.wcell) 8 = v % 2 ^ 32 + 2 ^ 32 + v / 2 ^ 33 % 2 * 2 ^ 33 + n % 2 ^ 12 * 2 ^ 34
            ∧ (∃ k, t.dist.parked.find? (fun e => e.1 == n) = some (n, { key := k, rec_ := r, queue := q })) ∧ t.cores = s.cores)
      ∧ (s.causes r x.supok ≠ 0 → r.wait = false ∨ s.freeEntry ≠ none → ∃ t, exec (.recordAdmit q) s = .next t
          ∧ (t.queue q).head = x.head + 1 ∧ (t.queue q).adm = none ∧ (t.queue q).rejc = sat x.rejc ∧ t.cores = s.cores))
    ∧ (∀ core n t rest, s.readyAt core = (n, t) :: rest →
      ((∀ e ∈ s.readyAt core, e.2.inherits = false) → (s.dist.runList core).length < 16 → ∃ u, exec (.runListJoin core) s = .next u
        ∧ u.dist.runList core = s.dist.runList core ++ [(s.dist.joins, { t with since := now })] ∧ n ∉ u.dist.ready
        ∧ (∀ e ∈ u.dist.parked, e.1 ≠ n) ∧ u.mem = s.mem ∧ u.cores = s.cores)
      ∧ (t.inherits = true → ∃ u, exec (.runListJoin core) s = .next u ∧ (u.queue t.queue).latec = sat (s.queue t.queue).latec
          ∧ u.cores = s.cores))
    ∧ (∀ c, s.dist.selected = none → bestCand (s.restoreCands ++ s.runCands ++ s.headCands) = some c →
      (∀ d ∈ s.restoreCands ++ s.runCands ++ s.headCands, c.level ≤ d.level)
      ∧ (c.kind = 0 ∨ c.task.rec_.deadline = 0 ∨ now < c.task.rec_.deadline → ∃ t, exec .taskSelect s = .next t
          ∧ t.dist.selected = some { c.task with level := c.level } ∧ t.dist.restoring = decide (c.kind = 0)
          ∧ t.mem = s.mem ∧ t.cores = s.cores)
      ∧ (c.kind ≠ 0 → c.task.rec_.deadline ≠ 0 → c.task.rec_.deadline ≤ now → ∃ t, exec .taskSelect s = .next t
          ∧ t.dist.selected = none ∧ (t.queue c.task.queue).latec = sat (s.queue c.task.queue).latec ∧ t.cores = s.cores))
    ∧ (∀ t m a b c, s.dist.selected = some t → s.dist.restoring = false →
      let r := t.rec_
      s.canBind r = true → r.deadline = 0 ∨ now < r.deadline → r.shape = false →
      (s.imageBad r = true → ∃ x, exec .taskBind s = .next x ∧ x.dist.selected = none ∧ x.dist.bound = s.dist.bound ∧ x.cores = s.cores
        ∧ (x.queue t.queue).rejc = sat (s.queue t.queue).rejc)
      ∧ (s.imageBad r = false → s.imageAt r.image = some m →
      s.contents r m.segs 1 = some a → s.contents r m.segs 2 = some b → s.contents r m.segs 3 = some c →
      r.parts.Nodup → (∀ u ∈ r.parts, u < 1536) → ∃ x, exec .taskBind s = .next x ∧ x.dist.selected = none
        ∧ x.dist.bound = s.dist.bound ++ [{ t with tbind := now, parts := r.parts, presses := r.presses, reported := [] }]
        ∧ ∀ u ∈ r.parts, (x.core u).task = some t.key ∧ (x.core u).ended = false ∧ (x.slotOf u 0).st = .run
            ∧ (x.slotOf u 0).b0.pc = BitVec.ofNat 16 m.entry &&& 0xFFFC ∧ (x.slotOf u 0).b0.estat = (if r.priv then 1 else 0)
            ∧ (∀ i, i < 4 → (x.slotOf u 0).b0.readG (BitVec.ofNat 5 (2 + i)) = r.arg i) ∧ ∀ i, i ≠ 0 → x.slotOf u i = s.slotOf u i))
    ∧ ((∀ t, s.dist.selected = some t → let bs := s.blockers t
        (bs.all (s.mayPreempt t.level) = true → ∀ b, b ∈ bs → b.key ∈ s.choosing.dist.stopping)
        ∧ (bs.all (s.mayPreempt t.level) = false → s.choosing = s))
      ∧ (s.choosing.victims = [] → exec .preemption s = .next s.choosing)
      ∧ (∀ b, s.choosing.victims = [b] → let s1 := b.parts.foldl State.haltCore s.choosing
        (∀ u ∈ b.parts, (s1.core u).stopping = true)
        ∧ ((∃ u ∈ b.parts, s1.atRest u = false ∨ s1.opsDone u = false ∨ (s1.core u).ended = true) ∨ s1.postsDue b = true →
          exec .preemption s = .next s1)
        ∧ ((∀ u ∈ b.parts, s1.atRest u = true ∧ s1.opsDone u = true ∧ (s1.core u).ended = false) → s1.postsDue b = false →
          (s1.pressesIdle b = false → exec .preemption s = .next (b.presses.foldl (fun y p => y.updPress p Press.requestStop) s1))
          ∧ (s1.pressesIdle b = true → ∃ x, exec .preemption s = .next x ∧ (∀ t ∈ x.dist.bound, t.key ≠ b.key)
              ∧ b.key ∉ x.dist.stopping ∧ (∃ t ∈ x.dist.preempted, t.key = b.key)
              ∧ ∀ u ∈ b.parts, (x.core u).task = none ∧ (x.core u).stopping = false ∧ ∀ i, (x.slotOf u i).st = .free)))
      ∧ ∀ t, s.dist.selected = some t → s.dist.restoring = true → t.parts.all s.coreIdle = true → t.presses.all s.pressIdle = true →
          ∃ x, exec .taskRestore s = .next x ∧ x.dist.selected = none ∧ x.dist.restoring = false
            ∧ x.dist.bound = s.dist.bound ++ [{ t with saved := [] }] ∧ ∀ u ∈ t.parts, (x.core u).task = some t.key)
    ∧ (∀ k t, s.boundTask k = some t →
      let gone := fun (x : State) => (∀ b ∈ x.dist.bound, b.key ≠ k) ∧ (∀ u ∈ t.parts, (x.core u).task = none)
        ∧ ∀ p ∈ t.presses, p ∉ t.wiped → (x.pressAt p).st = .stopped ∧ (x.pressAt p).pc = 0 ∧ (x.pressAt p).y = [] ∧ (x.pressAt p).held = []
      (t.over = true → t.parts ≠ [] → s.pressesIdle t = true → ∃ x, exec (.taskEnd k) s = .next x ∧ gone x)
      ∧ (∀ u, s.dist.halted.find? (fun e => e.1 == k) = some (k, u) → let s1 := t.parts.foldl State.haltCore s
          ((∃ v ∈ t.parts, s1.atRest v = false) → exec (.taskFaultEnd k) s = .next s1)
          ∧ ((∀ v ∈ t.parts, s1.atRest v = true) →
            (s1.pressesIdle t = false → exec (.taskFaultEnd k) s = .next (t.presses.foldl (fun y p => y.updPress p Press.requestStop) s1))
            ∧ (s1.pressesIdle t = true → (∀ p ∈ t.presses, (s.pressAt p).busy = none) → t.parts.all s1.opsDone = true →
              ∃ x, exec (.taskFaultEnd k) s = .next x ∧ gone x ∧ ∀ v ∈ t.parts, ∀ i, (x.slotOf v i).st = .free))))

/-- OWNCAS compares OWN whole and changes owner, epoch and level; a path failure of the owner leaves none; power-up is the
cold reset; FWGO starts the check, whose end gives READY or FAIL; DEVNUM, PTROOT, RUN, PLIM, BAR2BASE and a doorbell
take the owner's value that they can take, RST resets, INVVA clears V of every handle that maps the page, notes the
accesses in flight, and is acknowledged when no command holds the page and those accesses are performed; a write that
may not be made is dropped and counted, the owner's to a read-only register has no effect, one to a reserved offset is
dropped, and nothing else changes. BAR2 reads give the bytes of the window, all ones where nothing is mapped; writes
store the owner's bytes. The clock goes one step down above a limit, and one up after 100 ms below both; a trip stops
the clocks; errors count in their window, clear after it, and at the first count not below the threshold a core's
fault is lasting; an uncorrectable error makes its granule bad and removes its unit, or records its page, at once. A
read of BAR0 answers its register, and marks a record of the log read. RUN before READY (log entry 40), what the
acknowledgement waits for (80), the staging area at a warm reset (41), what each read reports (7), accesses as turns
of their own (70), the unit that holds an address (89) and the throttle's readings (90) are the model's choices.
(R484, R485, R486, R487, R488, R489, R491, R493, R494, R496, R498, R501) -/
def Obligations.DeviceEvents : Prop :=
  ∀ (s : State) (m : Master) (v : W64),
    let g := s.mgmt
    let sat := fun (n : Nat) => if n < 0xFFFF then n + 1 else n
    let denied := match m with
      | .host => { s with mgmt := { g with denyHost := sat g.denyHost } }
      | .board => { s with mgmt := { g with denyBoard := sat g.denyBoard } }
      | .fabric => { s with mgmt := { g with denyFab := sat g.denyFab } }
    let owner := g.owner = m.code
    let takes := fun (is : List Instr) (ok : Prop) (h : Mgmt) => ∀ i ∈ is,
      (owner → ok → exec i s = .next { s with mgmt := h }) ∧ (¬ (owner ∧ ok) → exec i s = .next denied)
    (let new := v.toNat / 2 ^ 32 % 4
     let ok := g.owner % 4 + (if g.expert then 4 else 0) + g.epoch.toNat * 2 ^ 16 = v.toNat % 2 ^ 32 ∧ (owner ∨ g.owner = 0 ∧ new = m.code)
     ∀ i ∈ [Instr.owncas m v, Instr.bar0RegisterWrite m 0x08 v],
      (ok → exec i s = .next { s with mgmt := { g with
        expert := decide (g.bootst = .ready) && g.policy && v.getLsbD 34 && decide (new ≠ 0)
        epoch := if new = g.owner then g.epoch else g.epoch + 1, owner := new } })
      ∧ (¬ ok → exec i s = .next denied))
    ∧ (owner → exec (.ownerPathFailure m) s = .next { s with mgmt := { g with owner := 0, expert := false, epoch := g.epoch + 1 } })
    ∧ exec .powerUp s = .next { State.reset with agenda := s.agenda, outbox := s.outbox, ticket := s.ticket, freeCtr := s.freeCtr }
    ∧ takes [.fwgo m v, .bar0RegisterWrite m 0x18 v] (0x1000 ≤ v.toNat ∧ v.toNat ≤ 0x1000000 ∧ g.bootst ≠ .check)
        { g with bootst := .check, fwLen := v.toNat }
    ∧ (g.bootst = .check →
      let fails := bootFailures (s.bytesAt stagingBase g.fwLen)
      ∃ t, exec .firmwareVerifyDone s = .next t ∧ t = { s with mgmt := { g with
          bootst := if fails = 0 then .ready else .fail, bootFail := BitVec.ofNat 5 fails, policy := t.mgmt.policy } })
    ∧ takes [.devnum m v, .bar0RegisterWrite m 0x20 v] (v.toNat < 512 ∧ g.run = false) { g with devnum := v.truncate 9 }
    ∧ takes [.ptroot m v, .bar0RegisterWrite m 0x28 v] (v.toNat % 4096 = 0 ∧ v.toNat < 2 ^ 52) { g with ptroot := v }
    ∧ takes [.run m v, .bar0RegisterWrite m 0x40 v] (v = 1 ∧ g.bootst = .ready) { g with run := true }
    ∧ takes [.bar0RegisterWrite m 0x50 v] (g.expert = true ∧ 1000 ≤ v.toNat ∧ v.toNat ≤ 3200) { g with plim := v.toNat }
    ∧ takes [.bar0RegisterWrite m 0x68 v] (v.toNat % 2 ^ 36 = 0 ∧ v.toNat < 2 ^ 52) { g with bar2base := v }
    ∧ (owner → v = 1 → exec (.rst m v) s = .next s.warmReset ∧ s.warmReset.vault = s.vault ∧ s.warmReset.mgmt = { g with inval := none, run := false, bar2base := 0, hdm := [] }
        ∧ s.warmReset.cores = [] ∧ s.warmReset.presses = [] ∧ s.warmReset.clusters = []
        ∧ ∀ a, a < 2 ^ 56 → s.warmReset.byteAt a = s.byteAt a)
    ∧ (¬ (owner ∧ v = 1) → exec (.rst m v) s = .next denied)
    ∧ exec (.bar0RegisterWrite m 0x30 v) s = exec (.invva m v) s ∧ exec (.bar0RegisterWrite m 0x48 v) s = exec (.rst m v) s
    ∧ (∀ q, q < 64 → exec (.bar0RegisterWrite m (0x1000 + 8 * q) v) s = exec (.doorbell m q v) s)
    ∧ (∀ off : Nat,
      let readOnly := off ∈ [0, 0x10, 0x38, 0x58, 0x60] ∨ (0x100 ≤ off ∧ off < 0x200) ∨ (0x2000 ≤ off ∧ off < 0x4000)
        ∨ (0x8000 ≤ off ∧ off < 0x10000)
      let written := off ∈ [0x08, 0x18, 0x20, 0x28, 0x30, 0x40, 0x48, 0x50, 0x68] ∨ ∃ q, q < 64 ∧ off = 0x1000 + 8 * q
      (readOnly → exec (.bar0RegisterWrite m off v) s = .next (if owner then s else denied))
      ∧ (¬ readOnly → ¬ written → exec (.bar0RegisterWrite m off v) s = .next s))
    ∧ (∀ q, let x := s.queue q
      let ok := q < 64 ∧ 1 ≤ v.toNat ∧ v.toNat ≤ 65536 ∧ g.run = true ∧ x.conf = true ∧ (x.tail - x.head).toNat + v.toNat ≤ 2 ^ x.logn
      (owner → ok → exec (.doorbell m q v) s = .next (s.setQueue q { x with tail := x.tail + v.truncate 32 }))
      ∧ (¬ (owner ∧ ok) → exec (.doorbell m q v) s = .next denied))
    ∧ (owner → g.run = true → g.inval = none → v.toNat / 4 % 1024 = 0 → v.toNat < 2 ^ 57 → v.toNat % 4 ≠ 3 →
      let n := if v.toNat % 4 = 0 then 0x1000 else if v.toNat % 4 = 1 then 0x200000 else 0x40000000
      ∃ t, exec (.invva m v) s = .next t ∧ t.mem = s.mem ∧ t.mgmt.inval = some (s.inFlight (v.toNat / n * n) n)
        ∧ ∀ u i, ∀ b ∈ [((s.slotOf u i).b0, (t.slotOf u i).b0), ((s.slotOf u i).b1, (t.slotOf u i).b1)], ∀ h,
            let old := mget {} b.1.h h
            mget {} b.2.h h = if old.maps (v.toNat / n * n) n then { old with v := false } else old)
    ∧ (¬ (owner ∧ g.inval = none ∧ v.toNat / 4 % 1024 = 0 ∧ v.toNat < 2 ^ 57 ∧ v.toNat % 4 ≠ 3) → exec (.invva m v) s = .next denied)
    ∧ (∀ i, g.inval = some i → s.translationHeld i.va i.size = true ∨ s.accessHeld i = true → exec .invalidationAck s = .next s)
    ∧ (∀ i, g.inval = some i → s.translationHeld i.va i.size = false → s.accessHeld i = false →
      exec .invalidationAck s = .next { s with mgmt := { g with inval := none } })
    ∧ (∀ off n, off + n ≤ 2 ^ 36 → ∃ t, exec (.bar2Read off n) s = .next t
      ∧ t = { s with mgmt := t.mgmt, outbox := s.outbox ++ [.hostRead ((List.range n).map (fun i =>
        let k := s.bar2Key (off + i)
        if s.bar2Has k then s.byteAt k else 0xFF))] })
    ∧ (∀ off, off % 8 = 0 → ¬ (0x2000 ≤ off ∧ off < 0x4000) →
      s.access m (.read off) = .next { s with outbox := s.outbox ++ [.register m (BitVec.ofNat 64 (s.bar0Word off))] })
    ∧ (∀ off (bs : List Byte), g.owner = 1 → g.bootst ≠ .ready → off + bs.length ≤ 0x1000000 → off % 64 + bs.length ≤ 64 → bs ≠ [] →
      exec (.bar2Write off bs) s = .next (s.put (2 ^ 60 + off) bs))
    ∧ (∀ off (bs : List Byte), off + bs.length ≤ 2 ^ 36 →
      let k := g.bar2base.toNat + off
      let refused := exec (.bar2Write off bs) s = .next { s with mgmt := { g with denyHost := sat g.denyHost } }
      (g.owner ≠ 1 → refused)
      ∧ (g.owner = 1 → g.bootst = .ready ∨ 0x1000000 ≤ off → k + bs.length ≤ 2 ^ 60 →
        ((∃ j, j < bs.length ∧ s.mapped (k + j) = false) → refused)
        ∧ ((∀ j, j < bs.length → s.mapped (k + j) = true) → off % 64 + bs.length ≤ 64 → bs ≠ [] →
          exec (.bar2Write off bs) s = .next (s.enginePut k bs))))
    ∧ (∀ off, off % 8 = 0 → 0x2000 ≤ off → off < 0x4000 → s.access m (.read off) = .next { s with
        mgmt := g.logRead ((off - 0x2000) / 32), outbox := s.outbox ++ [.register m (BitVec.ofNat 64 (s.bar0Word off))] })
    ∧ (∀ w d, let cool := 100 * w < 95 * g.plim ∧ d < 90
      (g.plim < w ∨ 95 ≤ d → exec (.clockThrottle ⟨w, d⟩) s = .next { s with mgmt := { g with clock := min 2 (g.clock + 1), coolSince := none } })
      ∧ (cool → g.coolSince = none → exec (.clockThrottle ⟨w, d⟩) s = .next { s with mgmt := { g with coolSince := some (s.time141 / 141) } })
      ∧ (∀ c, cool → g.coolSince = some c → c + 100000000 ≤ s.time141 / 141 →
        exec (.clockThrottle ⟨w, d⟩) s = .next { s with mgmt := { g with clock := g.clock - 1, coolSince := some (s.time141 / 141) } })
      ∧ (∀ c, cool → g.coolSince = some c → s.time141 / 141 < c + 100000000 → exec (.clockThrottle ⟨w, d⟩) s = .next s)
      ∧ (w ≤ g.plim → d < 95 → ¬ cool → exec (.clockThrottle ⟨w, d⟩) s = .next { s with mgmt := { g with coolSince := none } }))
    ∧ (∃ t, exec .thermalTrip s = .next t ∧ t.alive = false ∧ t.mgmt.mchead = g.mchead + 1 ∧ t.mem = s.mem ∧ t.cores = s.cores)
    ∧ (∀ u, u < 1536 → ∃ t, exec (.correctedError (.core u)) s = .next t
        ∧ (let old := s.errCount (.core u)
           let lasting := old.hit = false ∧ g.errThresholds.getD 2 0 ≤ old.count + 1
           (t.errCount (.core u)).count = old.count + 1 ∧ (lasting → u ∈ t.mgmt.remCores ∧ (t.errCount (.core u)).hit = true)
           ∧ (¬ lasting → t.mgmt.remCores = g.remCores)) ∧ t.mem = s.mem ∧ t.cores = s.cores)
    ∧ (∀ e, ∃ t, exec (.faultWindowExpiry e) s = .next t ∧ t = { s with mgmt := { g with errs := t.mgmt.errs } }
        ∧ ∀ c ∈ t.mgmt.errs, c ∈ g.errs ∧ (c.unit ≠ errKey e ∨ s.time141 / 141 < c.start + s.errWindow e))
    ∧ (∀ d, let k := 8 * d
        k < 0xB2D05E0000 ∨ (localBase 0 ≤ k ∧ k < localBase 1536) ∨ (padBase 0 ≤ k ∧ k < padBase 96) ∨ (imemBase 0 ≤ k ∧ k < imemBase 192)
          ∨ (planeKey 0 0 0 ≤ k ∧ k < planeKey 192 0 0) → ∃ t, exec (.uncorrectableError d) s = .next t ∧ d ∈ t.poison ∧ (∀ x ∈ s.poison, x ∈ t.poison)
        ∧ t = { s with poison := t.poison, mgmt := t.mgmt }
        ∧ (k < 0xB2D05E0000 → t.mgmt.mchead = g.mchead + 1)
        ∧ (localBase 0 ≤ k → k < localBase 1536 → (k - localBase 0) / 0x10000 ∈ t.mgmt.remCores)
        ∧ (padBase 0 ≤ k → k < padBase 96 → (k - padBase 0) / 0x600000 ∈ t.mgmt.remClusters)
        ∧ (imemBase 0 ≤ k → k < imemBase 192 → (k - imemBase 0) / 0x10000 ∈ t.mgmt.remPress)
        ∧ (planeKey 0 0 0 ≤ k → k < planeKey 192 0 0 → (k - planeKey 0 0 0) / 0x40000 ∈ t.mgmt.remPress))

/-- The machine after a cold reset: engines held in reset, no owner, BOOTST WAIT, PLIM 3,200 W, 940 MHz, empty
machine-check log, INVVA acknowledged, no decoder enabled; every slot FREE in bank 0 with every register 0, the
selector starts at slot 0, lookup cores halted; every tile FREE and the tile counters 0; copy and fabric registers and
SEQ 0, no descriptor, window or group; every press STOPPED with PC 0, no held record, no valid tile register, empty
queues, plane P0 active and its registers at the values of their table (NFMT 0x18011); the Splice engine not
configured, no queue configured, links DOWN. Registers for which the manual states no reset value hold 0 (log entry
1), and a byte that nothing has written reads 0 (log entry 2): the model's choice. (R11, R35, R98, R137, R142, R272,
R314, R316, R384, R485, R488, R496) -/
def Obligations.ResetState : Prop :=
  let s := State.reset
  s.alive = false ∧ s.mgmt.run = false ∧ s.mgmt.owner = 0 ∧ s.mgmt.expert = false ∧ s.mgmt.epoch = 0 ∧ s.mgmt.bootst = .wait
    ∧ s.mgmt.plim = 3200 ∧ s.mgmt.clock = 0 ∧ s.mgmt.mclog = [] ∧ s.mgmt.mchead = 0 ∧ s.mgmt.lost = 0 ∧ s.mgmt.inval = none
    ∧ s.mgmt.coolSince = none ∧ s.mgmt.errs = [] ∧ s.mgmt.remCores = [] ∧ s.mgmt.remPress = [] ∧ s.mgmt.remClusters = []
    ∧ s.mgmt.devnum = 0 ∧ s.mgmt.ptroot = 0 ∧ s.mgmt.bar2base = 0 ∧ s.mgmt.hdm = [] ∧ s.time141 = 0 ∧ s.agenda = []
    ∧ Memory.wf s.mem ∧ (∀ a, s.byteAt a = 0) ∧ (∀ a, s.isPool a = false) ∧ s.poison = [] ∧ s.posted = []
    ∧ (∀ u, (s.core u).next = 0 ∧ (s.core u).stopping = false ∧ (s.core u).look.run = false ∧ (s.core u).inbox = [] ∧ (s.core u).task = none
        ∧ (∀ q, (s.core u).eqOf q = []) ∧ ∀ c n, mget 0 (mget {} (s.core u).fab c).regs n = 0 ∧ (mget {} (s.core u).fab c).seq = 0)
    ∧ (∀ u i, let x := s.slotOf u i
        x.st = .free ∧ x.bank = false ∧ x.pfp = false ∧ x.pfvec = 0 ∧ x.fb = 0 ∧ (∀ n, mget 0 x.spill n = 0) ∧ x.wait = .none
        ∧ ∀ b ∈ [x.b0, x.b1], (∀ r, b.readG r = 0) ∧ b.k = 0 ∧ (∀ n, (mget {} b.h n).v = false) ∧ b.pc = 0 ∧ b.fps = 0
          ∧ b.estat = 0 ∧ b.epc = 0 ∧ b.ecause = 0 ∧ b.eval = 0 ∧ b.evec = 0 ∧ b.escr0 = 0 ∧ b.escr1 = 0 ∧ b.escr2 = 0
          ∧ b.escr3 = 0)
    ∧ (∀ c, (s.cluster c).ecnt = 0 ∧ (s.cluster c).rcnt = 0 ∧ (∀ b, (s.buf c b).state = .free ∧ (s.buf c b).gen = 0)
        ∧ (∀ n, (s.cluster c).desc n = none)
        ∧ ∀ ch, (s.chan c ch).seq = 0 ∧ (s.chan c ch).wp = 0 ∧ (s.chan c ch).queue = [] ∧ ∀ n, mget 0 (s.chan c ch).regs n = 0)
    ∧ (∀ p, let x := s.pressAt p
        x.st = .stopped ∧ x.busy = none ∧ x.pc = 0 ∧ x.held = [] ∧ (∀ y, (x.tileReg y).v = false) ∧ (∀ q, x.queueOf q = [])
        ∧ x.activeP = 0 ∧ (∀ n, (x.plane n).valid = false)
        ∧ ∀ n ≤ 27, x.readReg n = if n = 4 then 0x18011 else if n = 26 then 16 else 0)
    ∧ s.fabric.windows = [] ∧ s.fabric.groups = [] ∧ s.fabric.insts = [] ∧ (∀ l, (mget {} s.fabric.links l).state = 0)
    ∧ s.splice.cfg = none ∧ s.splice.queue = [] ∧ s.dist.queues = [] ∧ s.dist.bound = [] ∧ s.outbox = []

/-- A step takes the turn at the head of the agenda (of OWNCAS writes that stand together there, the one of the least
master: log entry 91), or, the agenda being empty, the one that the model's own order gives (log entry 24). In a
core's turn time moves on to the first cycle in which a slot can issue, and the slot that the selector picks runs: the
decoded instruction of its fetched word; an unassigned word runs the illegal-instruction trap; a lookup slot whose PC
is outside its store runs the fetch trap. A core whose opening of a tile (TOPEN, or CPY.TILE with open) meets that of
a lower core of its cluster lets that core's turn go first (log entry 95). With no such slot, or before the engines
run, nothing happens. A press performs the next instruction of the group under way, or, with none under way and
nothing to resume, the first of the group that its instruction memory holds at its PC, provided the group need not
wait and raises no fault; a group that cannot be read raises the fetch fault or the illegal bundle. An event, or an
access of a master (log entry 70), is performed unless the device has tripped, when only power-up is, and no clock
runs. (R137, R138, R153, R188, R246, R302, R310, R321, R334, R378, R484, R488) -/
def Obligations.StepRunsDecoded : Prop :=
  ∀ (s : State) (rest : List Turn),
    let s' := { s with agenda := rest }
    (∀ u c k, inOrder s.agenda = .unit u :: rest → s'.topenFirst u = none → s'.alive = true → s'.nextIssue u = some c →
      (s'.until_ c).selected u = some k →
      let t := (s'.until_ c).selecting u k
      let away := u < 1536 ∨ t.pc < 0x8000
      (∀ i, away → decode t.word = .ok i → step s = exec i t)
      ∧ (∀ e, away → decode t.word = .error e → step s = exec (.illegalInstruction t.word) t)
      ∧ (¬ away → step s = exec .lookupFetchFault t))
    ∧ (∀ u, inOrder s.agenda = .unit u :: rest → s'.alive = false ∨ s'.nextIssue u = none → step s = .next s')
    ∧ (∀ u v, inOrder s.agenda = .unit u :: rest → s'.topenFirst u = some v →
        v < u ∧ v / 16 = u / 16 ∧ (∃ k i, s'.topenAt v = some k ∧ s'.topenAt u = some i ∧ k ≤ i)
        ∧ (∀ w, w < v → w / 16 = u / 16 → ∀ k i, s'.topenAt w = some k → s'.topenAt u = some i → i < k)
        ∧ step s = runUnit v { s with agenda := .unit u :: rest })
    ∧ (∀ p i more, inOrder s.agenda = .press p :: rest → s'.alive = true → (s'.pressAt p).running = true →
        (s'.pressAt p).issue = i :: more →
        step s = exec i.instr ((s'.updPress p (fun x => { x with issue := more })).withIssue p i))
    ∧ (∀ p, inOrder s.agenda = .press p :: rest → s'.alive = true → let x := s'.pressAt p
        x.st = .run → x.issue = [] → x.faulted = false → s'.resumable p = none → x.nextAt ≤ x.beat →
        (∀ f, s'.readGroup p x.pc x.bundles = .error f →
          step s = exec (if f.code = 1 then .pressFetchFault p f.fpc else .illegalBundle p f) s')
        ∧ ∀ g i t, s'.readGroup p x.pc x.bundles = .ok g → g.bad = none → x.blocks p g = false →
            s'.groupFault exec p (issueOrder g.instrs) = none → s'.startGroup p g = some (i, t) → step s = exec i t)
    ∧ (∀ e, inOrder s.agenda = .event e :: rest → s.mgmt.tripped = false ∨ e = .powerUp → step s = exec e s')
    ∧ (∀ e, inOrder s.agenda = .event e :: rest → s.mgmt.tripped = true → e ≠ .powerUp → step s = .next s')
    ∧ (∀ n, inOrder s.agenda = .tick n :: rest → step s = .next (s'.pass n) ∧ (s.mgmt.tripped = true → s'.pass n = s'))
    ∧ (∀ m a, inOrder s.agenda = .access m a :: rest → step s = if s.mgmt.tripped then .next s' else s'.access m a)
    ∧ (∀ g, inOrder s.agenda = .poolCleared g :: rest →
        step s = .next (if s.isPool (8 * g) then { s' with poison := s.poison.filter (fun x => x != g) } else s'))
    ∧ (s.agenda = [] → step s = runTurn (autoTurn s) s)
    ∧ (∀ t more, (∀ m v, t ≠ .event (.owncas m v)) → (∀ m o v, t ≠ .event (.bar0RegisterWrite m o v)) →
        inOrder (t :: more) = t :: more)

/-- One word or more of every instruction family, written out from the manual's encodings and its worked examples, decodes
to the instruction it stands for: integer, immediate, compare, branch, call, memory, atomic, system, thread, tile,
copy, press command, lookup, Splice, fabric and distributor words, and press slot words and a bundle header; the words
0 and 0xFFFF_FFFF are unassigned. (R182, R183, R188, R193, R208, R236, R247, R273, R318, R386, R433, R478) -/
def Obligations.DecodeWords : Prop :=
  decode 0x04A63800 = .ok (.add 5 6 7) ∧ decode 0x2042FFFF = .ok (.addi 2 2 0xFFFF) ∧ decode 0x11095020 = .ok (.fadd 8 9 10 .b)
    ∧ decode 0x0C442804 = .ok (.cltu 2 4 5) ∧ decode 0x6D6A01D0 = .ok (.extu 11 10 7 16) ∧ decode 0x8864FFFD = .ok (.blt 3 4 0xFFFD)
    ∧ decode 0xA4060040 = .ok (.call 6 0x40) ∧ decode 0xC0A62010 = .ok (.ld 5 6 2 0x10)
    ∧ decode 0xC8A62472 = .ok (.amoadd 5 6 2 .acqRel .device .d false) ∧ decode 0xD8093804 = .ok (.mtsr 9 4)
    ∧ decode 0xDC1981C3 = .ok (.msend 25 16 3) ∧ decode 0xF9484800 = .ok (.topen 10 8 9)
    ∧ decode 0xE0450055 = .ok (.cpyWblk 2 5 false 1) ∧ decode 0xE4040045 = .ok (.muStart 4 1) ∧ decode 0xE8453000 = .ok (.lkPost 2 5 6)
    ∧ decode 0xED230041 = .ok (.kvmatch 9 3 true) ∧ decode 0xF0463823 = .ok (.fabAmocas 2 6 7 .w 0)
    ∧ decode 0xF5484801 = .ok (.dqPush 10 8 9)
    ∧ decode 0 = .error .major ∧ decode 0xFFFFFFFF = .error .major
    ∧ decodeSlot .m [0x01402000, 0x07FFC000] = some (.mma ⟨0, 1, 0, 0, 0, 31, 255, 0, false⟩, [])
    ∧ decodeSlot .q [0x01200000] = some (.qpop 0 1 0, []) ∧ decodeSlot .a [0x0204CA40] = some (.aread 0 3 5 1 false, [])
    ∧ decodeSlot .c [0x0140E07C] = some (.bload 0 3 1 0 31 0, []) ∧ decodeSlot .s [0x03080003] = some (.smovi 0 1 3, [])
    ∧ decodeSlot .b [0x11000032] = some (.br 1 0x32, []) ∧ headerSlots 0x84000000 = [.m, .q]

/-- For every instruction of the strand and lookup cores that is well formed, with every operand at every value that its
encoding admits, the decoder reads the encoded word as that instruction, so no bit of an encoding is dropped. (R182,
R183, R188, R193, R236, R247, R273, R318, R386, R409, R433, R478) -/
def Obligations.StrandRoundTrip : Prop :=
  ∀ (i : Instr) (w : W32), i.wf = true → encode? i = some w → decode w = .ok i

/-- For every bundle of at least one well-formed press instruction, in the order of the header's slot mask and with no
slot twice, the decoder reads the encoded words, whatever stands after them, as the same stop bit and the same
instructions, and leaves the words that follow. (R328, R329, R331, R332, R337, R339, R346, R353, R356, R359, R364) -/
def Obligations.BundleRoundTrip : Prop :=
  ∀ (stop : Bool) (is : List Instr) (more : List W32), is ≠ [] → (∀ i ∈ is, i.wf = true) →
    ∀ (slots : List PressSlot), List.Sublist slots pressSlots → is.map pressSlotOf = slots.map some →
    decodeBundle (encodeBundle stop is ++ more) = some (stop, is, more)

/-- Whatever turn a step takes, from every state whose memory is in canonical form (addresses strictly rising, no listed
byte equal to what an unlisted one reads as), the next state's memory is in canonical form, so equal memories stay
equal data. (R13, R17, R60, R486, R496) -/
def Obligations.MemoryInvariant : Prop :=
  ∀ (s s' : State), Memory.wf s.mem → step s = .next s' → Memory.wf s'.mem
end

