-- ==== Sys2Proof/Laws/State.lean ====
section
/-! SUPPORT. What each update of the state leaves of every other field: one lemma per field per update. -/
namespace Sys2Proof.Machine

variable (s : State)

/-! ### setCore -/

@[simp] theorem setCore_cycle (u : Nat) (c : Core) : (s.setCore u c).cycle = s.cycle := rfl
@[simp] theorem setCore_time141 (u : Nat) (c : Core) : (s.setCore u c).time141 = s.time141 := rfl
@[simp] theorem setCore_agenda (u : Nat) (c : Core) : (s.setCore u c).agenda = s.agenda := rfl
@[simp] theorem setCore_cur (u : Nat) (c : Core) : (s.setCore u c).cur = s.cur := rfl
@[simp] theorem setCore_slot (u : Nat) (c : Core) : (s.setCore u c).slot = s.slot := rfl
@[simp] theorem setCore_press (u : Nat) (c : Core) : (s.setCore u c).press = s.press := rfl
@[simp] theorem setCore_mem (u : Nat) (c : Core) : (s.setCore u c).mem = s.mem := rfl
@[simp] theorem setCore_poison (u : Nat) (c : Core) : (s.setCore u c).poison = s.poison := rfl
@[simp] theorem setCore_clusters (u : Nat) (c : Core) : (s.setCore u c).clusters = s.clusters := rfl
@[simp] theorem setCore_presses (u : Nat) (c : Core) : (s.setCore u c).presses = s.presses := rfl
@[simp] theorem setCore_posted (u : Nat) (c : Core) : (s.setCore u c).posted = s.posted := rfl
@[simp] theorem setCore_replicas (u : Nat) (c : Core) : (s.setCore u c).replicas = s.replicas := rfl
@[simp] theorem setCore_pool (u : Nat) (c : Core) : (s.setCore u c).pool = s.pool := rfl
@[simp] theorem setCore_clocks (u : Nat) (c : Core) : (s.setCore u c).clocks = s.clocks := rfl
@[simp] theorem setCore_fibre (u : Nat) (c : Core) : (s.setCore u c).fibre = s.fibre := rfl
@[simp] theorem setCore_fabric (u : Nat) (c : Core) : (s.setCore u c).fabric = s.fabric := rfl
@[simp] theorem setCore_splice (u : Nat) (c : Core) : (s.setCore u c).splice = s.splice := rfl
@[simp] theorem setCore_dist (u : Nat) (c : Core) : (s.setCore u c).dist = s.dist := rfl
@[simp] theorem setCore_mgmt (u : Nat) (c : Core) : (s.setCore u c).mgmt = s.mgmt := rfl
@[simp] theorem setCore_outbox (u : Nat) (c : Core) : (s.setCore u c).outbox = s.outbox := rfl
@[simp] theorem setCore_ticket (u : Nat) (c : Core) : (s.setCore u c).ticket = s.ticket := rfl
@[simp] theorem setCore_freeCtr (u : Nat) (c : Core) : (s.setCore u c).freeCtr = s.freeCtr := rfl
@[simp] theorem setCore_vault (u : Nat) (c : Core) : (s.setCore u c).vault = s.vault := rfl

/-! ### updCore -/

@[simp] theorem updCore_cycle (u : Nat) (f : Core → Core) : (s.updCore u f).cycle = s.cycle := rfl
@[simp] theorem updCore_time141 (u : Nat) (f : Core → Core) : (s.updCore u f).time141 = s.time141 := rfl
@[simp] theorem updCore_agenda (u : Nat) (f : Core → Core) : (s.updCore u f).agenda = s.agenda := rfl
@[simp] theorem updCore_cur (u : Nat) (f : Core → Core) : (s.updCore u f).cur = s.cur := rfl
@[simp] theorem updCore_slot (u : Nat) (f : Core → Core) : (s.updCore u f).slot = s.slot := rfl
@[simp] theorem updCore_press (u : Nat) (f : Core → Core) : (s.updCore u f).press = s.press := rfl
@[simp] theorem updCore_mem (u : Nat) (f : Core → Core) : (s.updCore u f).mem = s.mem := rfl
@[simp] theorem updCore_poison (u : Nat) (f : Core → Core) : (s.updCore u f).poison = s.poison := rfl
@[simp] theorem updCore_clusters (u : Nat) (f : Core → Core) : (s.updCore u f).clusters = s.clusters := rfl
@[simp] theorem updCore_presses (u : Nat) (f : Core → Core) : (s.updCore u f).presses = s.presses := rfl
@[simp] theorem updCore_posted (u : Nat) (f : Core → Core) : (s.updCore u f).posted = s.posted := rfl
@[simp] theorem updCore_replicas (u : Nat) (f : Core → Core) : (s.updCore u f).replicas = s.replicas := rfl
@[simp] theorem updCore_pool (u : Nat) (f : Core → Core) : (s.updCore u f).pool = s.pool := rfl
@[simp] theorem updCore_clocks (u : Nat) (f : Core → Core) : (s.updCore u f).clocks = s.clocks := rfl
@[simp] theorem updCore_fibre (u : Nat) (f : Core → Core) : (s.updCore u f).fibre = s.fibre := rfl
@[simp] theorem updCore_fabric (u : Nat) (f : Core → Core) : (s.updCore u f).fabric = s.fabric := rfl
@[simp] theorem updCore_splice (u : Nat) (f : Core → Core) : (s.updCore u f).splice = s.splice := rfl
@[simp] theorem updCore_dist (u : Nat) (f : Core → Core) : (s.updCore u f).dist = s.dist := rfl
@[simp] theorem updCore_mgmt (u : Nat) (f : Core → Core) : (s.updCore u f).mgmt = s.mgmt := rfl
@[simp] theorem updCore_outbox (u : Nat) (f : Core → Core) : (s.updCore u f).outbox = s.outbox := rfl
@[simp] theorem updCore_ticket (u : Nat) (f : Core → Core) : (s.updCore u f).ticket = s.ticket := rfl
@[simp] theorem updCore_freeCtr (u : Nat) (f : Core → Core) : (s.updCore u f).freeCtr = s.freeCtr := rfl
@[simp] theorem updCore_vault (u : Nat) (f : Core → Core) : (s.updCore u f).vault = s.vault := rfl

/-! ### setSlot -/

@[simp] theorem setSlot_cycle (u i : Nat) (x : Slot) : (s.setSlot u i x).cycle = s.cycle := rfl
@[simp] theorem setSlot_time141 (u i : Nat) (x : Slot) : (s.setSlot u i x).time141 = s.time141 := rfl
@[simp] theorem setSlot_agenda (u i : Nat) (x : Slot) : (s.setSlot u i x).agenda = s.agenda := rfl
@[simp] theorem setSlot_cur (u i : Nat) (x : Slot) : (s.setSlot u i x).cur = s.cur := rfl
@[simp] theorem setSlot_slot (u i : Nat) (x : Slot) : (s.setSlot u i x).slot = s.slot := rfl
@[simp] theorem setSlot_press (u i : Nat) (x : Slot) : (s.setSlot u i x).press = s.press := rfl
@[simp] theorem setSlot_mem (u i : Nat) (x : Slot) : (s.setSlot u i x).mem = s.mem := rfl
@[simp] theorem setSlot_poison (u i : Nat) (x : Slot) : (s.setSlot u i x).poison = s.poison := rfl
@[simp] theorem setSlot_clusters (u i : Nat) (x : Slot) : (s.setSlot u i x).clusters = s.clusters := rfl
@[simp] theorem setSlot_presses (u i : Nat) (x : Slot) : (s.setSlot u i x).presses = s.presses := rfl
@[simp] theorem setSlot_posted (u i : Nat) (x : Slot) : (s.setSlot u i x).posted = s.posted := rfl
@[simp] theorem setSlot_replicas (u i : Nat) (x : Slot) : (s.setSlot u i x).replicas = s.replicas := rfl
@[simp] theorem setSlot_pool (u i : Nat) (x : Slot) : (s.setSlot u i x).pool = s.pool := rfl
@[simp] theorem setSlot_clocks (u i : Nat) (x : Slot) : (s.setSlot u i x).clocks = s.clocks := rfl
@[simp] theorem setSlot_fibre (u i : Nat) (x : Slot) : (s.setSlot u i x).fibre = s.fibre := rfl
@[simp] theorem setSlot_fabric (u i : Nat) (x : Slot) : (s.setSlot u i x).fabric = s.fabric := rfl
@[simp] theorem setSlot_splice (u i : Nat) (x : Slot) : (s.setSlot u i x).splice = s.splice := rfl
@[simp] theorem setSlot_dist (u i : Nat) (x : Slot) : (s.setSlot u i x).dist = s.dist := rfl
@[simp] theorem setSlot_mgmt (u i : Nat) (x : Slot) : (s.setSlot u i x).mgmt = s.mgmt := rfl
@[simp] theorem setSlot_outbox (u i : Nat) (x : Slot) : (s.setSlot u i x).outbox = s.outbox := rfl
@[simp] theorem setSlot_ticket (u i : Nat) (x : Slot) : (s.setSlot u i x).ticket = s.ticket := rfl
@[simp] theorem setSlot_freeCtr (u i : Nat) (x : Slot) : (s.setSlot u i x).freeCtr = s.freeCtr := rfl
@[simp] theorem setSlot_vault (u i : Nat) (x : Slot) : (s.setSlot u i x).vault = s.vault := rfl

/-! ### updSlot -/

@[simp] theorem updSlot_cycle (u i : Nat) (f : Slot → Slot) : (s.updSlot u i f).cycle = s.cycle := rfl
@[simp] theorem updSlot_time141 (u i : Nat) (f : Slot → Slot) : (s.updSlot u i f).time141 = s.time141 := rfl
@[simp] theorem updSlot_agenda (u i : Nat) (f : Slot → Slot) : (s.updSlot u i f).agenda = s.agenda := rfl
@[simp] theorem updSlot_cur (u i : Nat) (f : Slot → Slot) : (s.updSlot u i f).cur = s.cur := rfl
@[simp] theorem updSlot_slot (u i : Nat) (f : Slot → Slot) : (s.updSlot u i f).slot = s.slot := rfl
@[simp] theorem updSlot_press (u i : Nat) (f : Slot → Slot) : (s.updSlot u i f).press = s.press := rfl
@[simp] theorem updSlot_mem (u i : Nat) (f : Slot → Slot) : (s.updSlot u i f).mem = s.mem := rfl
@[simp] theorem updSlot_poison (u i : Nat) (f : Slot → Slot) : (s.updSlot u i f).poison = s.poison := rfl
@[simp] theorem updSlot_clusters (u i : Nat) (f : Slot → Slot) : (s.updSlot u i f).clusters = s.clusters := rfl
@[simp] theorem updSlot_presses (u i : Nat) (f : Slot → Slot) : (s.updSlot u i f).presses = s.presses := rfl
@[simp] theorem updSlot_posted (u i : Nat) (f : Slot → Slot) : (s.updSlot u i f).posted = s.posted := rfl
@[simp] theorem updSlot_replicas (u i : Nat) (f : Slot → Slot) : (s.updSlot u i f).replicas = s.replicas := rfl
@[simp] theorem updSlot_pool (u i : Nat) (f : Slot → Slot) : (s.updSlot u i f).pool = s.pool := rfl
@[simp] theorem updSlot_clocks (u i : Nat) (f : Slot → Slot) : (s.updSlot u i f).clocks = s.clocks := rfl
@[simp] theorem updSlot_fibre (u i : Nat) (f : Slot → Slot) : (s.updSlot u i f).fibre = s.fibre := rfl
@[simp] theorem updSlot_fabric (u i : Nat) (f : Slot → Slot) : (s.updSlot u i f).fabric = s.fabric := rfl
@[simp] theorem updSlot_splice (u i : Nat) (f : Slot → Slot) : (s.updSlot u i f).splice = s.splice := rfl
@[simp] theorem updSlot_dist (u i : Nat) (f : Slot → Slot) : (s.updSlot u i f).dist = s.dist := rfl
@[simp] theorem updSlot_mgmt (u i : Nat) (f : Slot → Slot) : (s.updSlot u i f).mgmt = s.mgmt := rfl
@[simp] theorem updSlot_outbox (u i : Nat) (f : Slot → Slot) : (s.updSlot u i f).outbox = s.outbox := rfl
@[simp] theorem updSlot_ticket (u i : Nat) (f : Slot → Slot) : (s.updSlot u i f).ticket = s.ticket := rfl
@[simp] theorem updSlot_freeCtr (u i : Nat) (f : Slot → Slot) : (s.updSlot u i f).freeCtr = s.freeCtr := rfl
@[simp] theorem updSlot_vault (u i : Nat) (f : Slot → Slot) : (s.updSlot u i f).vault = s.vault := rfl

/-! ### updMe -/

@[simp] theorem updMe_cycle (f : Slot → Slot) : (s.updMe f).cycle = s.cycle := rfl
@[simp] theorem updMe_time141 (f : Slot → Slot) : (s.updMe f).time141 = s.time141 := rfl
@[simp] theorem updMe_agenda (f : Slot → Slot) : (s.updMe f).agenda = s.agenda := rfl
@[simp] theorem updMe_cur (f : Slot → Slot) : (s.updMe f).cur = s.cur := rfl
@[simp] theorem updMe_slot (f : Slot → Slot) : (s.updMe f).slot = s.slot := rfl
@[simp] theorem updMe_press (f : Slot → Slot) : (s.updMe f).press = s.press := rfl
@[simp] theorem updMe_mem (f : Slot → Slot) : (s.updMe f).mem = s.mem := rfl
@[simp] theorem updMe_poison (f : Slot → Slot) : (s.updMe f).poison = s.poison := rfl
@[simp] theorem updMe_clusters (f : Slot → Slot) : (s.updMe f).clusters = s.clusters := rfl
@[simp] theorem updMe_presses (f : Slot → Slot) : (s.updMe f).presses = s.presses := rfl
@[simp] theorem updMe_posted (f : Slot → Slot) : (s.updMe f).posted = s.posted := rfl
@[simp] theorem updMe_replicas (f : Slot → Slot) : (s.updMe f).replicas = s.replicas := rfl
@[simp] theorem updMe_pool (f : Slot → Slot) : (s.updMe f).pool = s.pool := rfl
@[simp] theorem updMe_clocks (f : Slot → Slot) : (s.updMe f).clocks = s.clocks := rfl
@[simp] theorem updMe_fibre (f : Slot → Slot) : (s.updMe f).fibre = s.fibre := rfl
@[simp] theorem updMe_fabric (f : Slot → Slot) : (s.updMe f).fabric = s.fabric := rfl
@[simp] theorem updMe_splice (f : Slot → Slot) : (s.updMe f).splice = s.splice := rfl
@[simp] theorem updMe_dist (f : Slot → Slot) : (s.updMe f).dist = s.dist := rfl
@[simp] theorem updMe_mgmt (f : Slot → Slot) : (s.updMe f).mgmt = s.mgmt := rfl
@[simp] theorem updMe_outbox (f : Slot → Slot) : (s.updMe f).outbox = s.outbox := rfl
@[simp] theorem updMe_ticket (f : Slot → Slot) : (s.updMe f).ticket = s.ticket := rfl
@[simp] theorem updMe_freeCtr (f : Slot → Slot) : (s.updMe f).freeCtr = s.freeCtr := rfl
@[simp] theorem updMe_vault (f : Slot → Slot) : (s.updMe f).vault = s.vault := rfl

/-! ### updBk -/

@[simp] theorem updBk_cycle (f : Bank → Bank) : (s.updBk f).cycle = s.cycle := rfl
@[simp] theorem updBk_time141 (f : Bank → Bank) : (s.updBk f).time141 = s.time141 := rfl
@[simp] theorem updBk_agenda (f : Bank → Bank) : (s.updBk f).agenda = s.agenda := rfl
@[simp] theorem updBk_cur (f : Bank → Bank) : (s.updBk f).cur = s.cur := rfl
@[simp] theorem updBk_slot (f : Bank → Bank) : (s.updBk f).slot = s.slot := rfl
@[simp] theorem updBk_press (f : Bank → Bank) : (s.updBk f).press = s.press := rfl
@[simp] theorem updBk_mem (f : Bank → Bank) : (s.updBk f).mem = s.mem := rfl
@[simp] theorem updBk_poison (f : Bank → Bank) : (s.updBk f).poison = s.poison := rfl
@[simp] theorem updBk_clusters (f : Bank → Bank) : (s.updBk f).clusters = s.clusters := rfl
@[simp] theorem updBk_presses (f : Bank → Bank) : (s.updBk f).presses = s.presses := rfl
@[simp] theorem updBk_posted (f : Bank → Bank) : (s.updBk f).posted = s.posted := rfl
@[simp] theorem updBk_replicas (f : Bank → Bank) : (s.updBk f).replicas = s.replicas := rfl
@[simp] theorem updBk_pool (f : Bank → Bank) : (s.updBk f).pool = s.pool := rfl
@[simp] theorem updBk_clocks (f : Bank → Bank) : (s.updBk f).clocks = s.clocks := rfl
@[simp] theorem updBk_fibre (f : Bank → Bank) : (s.updBk f).fibre = s.fibre := rfl
@[simp] theorem updBk_fabric (f : Bank → Bank) : (s.updBk f).fabric = s.fabric := rfl
@[simp] theorem updBk_splice (f : Bank → Bank) : (s.updBk f).splice = s.splice := rfl
@[simp] theorem updBk_dist (f : Bank → Bank) : (s.updBk f).dist = s.dist := rfl
@[simp] theorem updBk_mgmt (f : Bank → Bank) : (s.updBk f).mgmt = s.mgmt := rfl
@[simp] theorem updBk_outbox (f : Bank → Bank) : (s.updBk f).outbox = s.outbox := rfl
@[simp] theorem updBk_ticket (f : Bank → Bank) : (s.updBk f).ticket = s.ticket := rfl
@[simp] theorem updBk_freeCtr (f : Bank → Bank) : (s.updBk f).freeCtr = s.freeCtr := rfl
@[simp] theorem updBk_vault (f : Bank → Bank) : (s.updBk f).vault = s.vault := rfl

/-! ### writeG -/

@[simp] theorem writeG_cycle (r : GReg) (v : W64) : (s.writeG r v).cycle = s.cycle := rfl
@[simp] theorem writeG_time141 (r : GReg) (v : W64) : (s.writeG r v).time141 = s.time141 := rfl
@[simp] theorem writeG_agenda (r : GReg) (v : W64) : (s.writeG r v).agenda = s.agenda := rfl
@[simp] theorem writeG_cur (r : GReg) (v : W64) : (s.writeG r v).cur = s.cur := rfl
@[simp] theorem writeG_slot (r : GReg) (v : W64) : (s.writeG r v).slot = s.slot := rfl
@[simp] theorem writeG_press (r : GReg) (v : W64) : (s.writeG r v).press = s.press := rfl
@[simp] theorem writeG_mem (r : GReg) (v : W64) : (s.writeG r v).mem = s.mem := rfl
@[simp] theorem writeG_poison (r : GReg) (v : W64) : (s.writeG r v).poison = s.poison := rfl
@[simp] theorem writeG_clusters (r : GReg) (v : W64) : (s.writeG r v).clusters = s.clusters := rfl
@[simp] theorem writeG_presses (r : GReg) (v : W64) : (s.writeG r v).presses = s.presses := rfl
@[simp] theorem writeG_posted (r : GReg) (v : W64) : (s.writeG r v).posted = s.posted := rfl
@[simp] theorem writeG_replicas (r : GReg) (v : W64) : (s.writeG r v).replicas = s.replicas := rfl
@[simp] theorem writeG_pool (r : GReg) (v : W64) : (s.writeG r v).pool = s.pool := rfl
@[simp] theorem writeG_clocks (r : GReg) (v : W64) : (s.writeG r v).clocks = s.clocks := rfl
@[simp] theorem writeG_fibre (r : GReg) (v : W64) : (s.writeG r v).fibre = s.fibre := rfl
@[simp] theorem writeG_fabric (r : GReg) (v : W64) : (s.writeG r v).fabric = s.fabric := rfl
@[simp] theorem writeG_splice (r : GReg) (v : W64) : (s.writeG r v).splice = s.splice := rfl
@[simp] theorem writeG_dist (r : GReg) (v : W64) : (s.writeG r v).dist = s.dist := rfl
@[simp] theorem writeG_mgmt (r : GReg) (v : W64) : (s.writeG r v).mgmt = s.mgmt := rfl
@[simp] theorem writeG_outbox (r : GReg) (v : W64) : (s.writeG r v).outbox = s.outbox := rfl
@[simp] theorem writeG_ticket (r : GReg) (v : W64) : (s.writeG r v).ticket = s.ticket := rfl
@[simp] theorem writeG_freeCtr (r : GReg) (v : W64) : (s.writeG r v).freeCtr = s.freeCtr := rfl
@[simp] theorem writeG_vault (r : GReg) (v : W64) : (s.writeG r v).vault = s.vault := rfl

/-! ### writeK -/

@[simp] theorem writeK_cycle (k : KReg) (v : Bool) : (s.writeK k v).cycle = s.cycle := rfl
@[simp] theorem writeK_time141 (k : KReg) (v : Bool) : (s.writeK k v).time141 = s.time141 := rfl
@[simp] theorem writeK_agenda (k : KReg) (v : Bool) : (s.writeK k v).agenda = s.agenda := rfl
@[simp] theorem writeK_cur (k : KReg) (v : Bool) : (s.writeK k v).cur = s.cur := rfl
@[simp] theorem writeK_slot (k : KReg) (v : Bool) : (s.writeK k v).slot = s.slot := rfl
@[simp] theorem writeK_press (k : KReg) (v : Bool) : (s.writeK k v).press = s.press := rfl
@[simp] theorem writeK_mem (k : KReg) (v : Bool) : (s.writeK k v).mem = s.mem := rfl
@[simp] theorem writeK_poison (k : KReg) (v : Bool) : (s.writeK k v).poison = s.poison := rfl
@[simp] theorem writeK_clusters (k : KReg) (v : Bool) : (s.writeK k v).clusters = s.clusters := rfl
@[simp] theorem writeK_presses (k : KReg) (v : Bool) : (s.writeK k v).presses = s.presses := rfl
@[simp] theorem writeK_posted (k : KReg) (v : Bool) : (s.writeK k v).posted = s.posted := rfl
@[simp] theorem writeK_replicas (k : KReg) (v : Bool) : (s.writeK k v).replicas = s.replicas := rfl
@[simp] theorem writeK_pool (k : KReg) (v : Bool) : (s.writeK k v).pool = s.pool := rfl
@[simp] theorem writeK_clocks (k : KReg) (v : Bool) : (s.writeK k v).clocks = s.clocks := rfl
@[simp] theorem writeK_fibre (k : KReg) (v : Bool) : (s.writeK k v).fibre = s.fibre := rfl
@[simp] theorem writeK_fabric (k : KReg) (v : Bool) : (s.writeK k v).fabric = s.fabric := rfl
@[simp] theorem writeK_splice (k : KReg) (v : Bool) : (s.writeK k v).splice = s.splice := rfl
@[simp] theorem writeK_dist (k : KReg) (v : Bool) : (s.writeK k v).dist = s.dist := rfl
@[simp] theorem writeK_mgmt (k : KReg) (v : Bool) : (s.writeK k v).mgmt = s.mgmt := rfl
@[simp] theorem writeK_outbox (k : KReg) (v : Bool) : (s.writeK k v).outbox = s.outbox := rfl
@[simp] theorem writeK_ticket (k : KReg) (v : Bool) : (s.writeK k v).ticket = s.ticket := rfl
@[simp] theorem writeK_freeCtr (k : KReg) (v : Bool) : (s.writeK k v).freeCtr = s.freeCtr := rfl
@[simp] theorem writeK_vault (k : KReg) (v : Bool) : (s.writeK k v).vault = s.vault := rfl

/-! ### writeH -/

@[simp] theorem writeH_cycle (h : HReg) (v : Handle) : (s.writeH h v).cycle = s.cycle := rfl
@[simp] theorem writeH_time141 (h : HReg) (v : Handle) : (s.writeH h v).time141 = s.time141 := rfl
@[simp] theorem writeH_agenda (h : HReg) (v : Handle) : (s.writeH h v).agenda = s.agenda := rfl
@[simp] theorem writeH_cur (h : HReg) (v : Handle) : (s.writeH h v).cur = s.cur := rfl
@[simp] theorem writeH_slot (h : HReg) (v : Handle) : (s.writeH h v).slot = s.slot := rfl
@[simp] theorem writeH_press (h : HReg) (v : Handle) : (s.writeH h v).press = s.press := rfl
@[simp] theorem writeH_mem (h : HReg) (v : Handle) : (s.writeH h v).mem = s.mem := rfl
@[simp] theorem writeH_poison (h : HReg) (v : Handle) : (s.writeH h v).poison = s.poison := rfl
@[simp] theorem writeH_clusters (h : HReg) (v : Handle) : (s.writeH h v).clusters = s.clusters := rfl
@[simp] theorem writeH_presses (h : HReg) (v : Handle) : (s.writeH h v).presses = s.presses := rfl
@[simp] theorem writeH_posted (h : HReg) (v : Handle) : (s.writeH h v).posted = s.posted := rfl
@[simp] theorem writeH_replicas (h : HReg) (v : Handle) : (s.writeH h v).replicas = s.replicas := rfl
@[simp] theorem writeH_pool (h : HReg) (v : Handle) : (s.writeH h v).pool = s.pool := rfl
@[simp] theorem writeH_clocks (h : HReg) (v : Handle) : (s.writeH h v).clocks = s.clocks := rfl
@[simp] theorem writeH_fibre (h : HReg) (v : Handle) : (s.writeH h v).fibre = s.fibre := rfl
@[simp] theorem writeH_fabric (h : HReg) (v : Handle) : (s.writeH h v).fabric = s.fabric := rfl
@[simp] theorem writeH_splice (h : HReg) (v : Handle) : (s.writeH h v).splice = s.splice := rfl
@[simp] theorem writeH_dist (h : HReg) (v : Handle) : (s.writeH h v).dist = s.dist := rfl
@[simp] theorem writeH_mgmt (h : HReg) (v : Handle) : (s.writeH h v).mgmt = s.mgmt := rfl
@[simp] theorem writeH_outbox (h : HReg) (v : Handle) : (s.writeH h v).outbox = s.outbox := rfl
@[simp] theorem writeH_ticket (h : HReg) (v : Handle) : (s.writeH h v).ticket = s.ticket := rfl
@[simp] theorem writeH_freeCtr (h : HReg) (v : Handle) : (s.writeH h v).freeCtr = s.freeCtr := rfl
@[simp] theorem writeH_vault (h : HReg) (v : Handle) : (s.writeH h v).vault = s.vault := rfl

/-! ### retire -/

@[simp] theorem retire_cycle (n : Nat) : (s.retire n).cycle = s.cycle := rfl
@[simp] theorem retire_time141 (n : Nat) : (s.retire n).time141 = s.time141 := rfl
@[simp] theorem retire_agenda (n : Nat) : (s.retire n).agenda = s.agenda := rfl
@[simp] theorem retire_cur (n : Nat) : (s.retire n).cur = s.cur := rfl
@[simp] theorem retire_slot (n : Nat) : (s.retire n).slot = s.slot := rfl
@[simp] theorem retire_press (n : Nat) : (s.retire n).press = s.press := rfl
@[simp] theorem retire_mem (n : Nat) : (s.retire n).mem = s.mem := rfl
@[simp] theorem retire_poison (n : Nat) : (s.retire n).poison = s.poison := rfl
@[simp] theorem retire_clusters (n : Nat) : (s.retire n).clusters = s.clusters := rfl
@[simp] theorem retire_presses (n : Nat) : (s.retire n).presses = s.presses := rfl
@[simp] theorem retire_posted (n : Nat) : (s.retire n).posted = s.posted := rfl
@[simp] theorem retire_replicas (n : Nat) : (s.retire n).replicas = s.replicas := rfl
@[simp] theorem retire_pool (n : Nat) : (s.retire n).pool = s.pool := rfl
@[simp] theorem retire_clocks (n : Nat) : (s.retire n).clocks = s.clocks := rfl
@[simp] theorem retire_fibre (n : Nat) : (s.retire n).fibre = s.fibre := rfl
@[simp] theorem retire_fabric (n : Nat) : (s.retire n).fabric = s.fabric := rfl
@[simp] theorem retire_splice (n : Nat) : (s.retire n).splice = s.splice := rfl
@[simp] theorem retire_dist (n : Nat) : (s.retire n).dist = s.dist := rfl
@[simp] theorem retire_mgmt (n : Nat) : (s.retire n).mgmt = s.mgmt := rfl
@[simp] theorem retire_outbox (n : Nat) : (s.retire n).outbox = s.outbox := rfl
@[simp] theorem retire_ticket (n : Nat) : (s.retire n).ticket = s.ticket := rfl
@[simp] theorem retire_freeCtr (n : Nat) : (s.retire n).freeCtr = s.freeCtr := rfl
@[simp] theorem retire_vault (n : Nat) : (s.retire n).vault = s.vault := rfl

/-! ### moveTo -/

@[simp] theorem moveTo_cycle (a : BitVec 16) : (s.moveTo a).cycle = s.cycle := rfl
@[simp] theorem moveTo_time141 (a : BitVec 16) : (s.moveTo a).time141 = s.time141 := rfl
@[simp] theorem moveTo_agenda (a : BitVec 16) : (s.moveTo a).agenda = s.agenda := rfl
@[simp] theorem moveTo_cur (a : BitVec 16) : (s.moveTo a).cur = s.cur := rfl
@[simp] theorem moveTo_slot (a : BitVec 16) : (s.moveTo a).slot = s.slot := rfl
@[simp] theorem moveTo_press (a : BitVec 16) : (s.moveTo a).press = s.press := rfl
@[simp] theorem moveTo_mem (a : BitVec 16) : (s.moveTo a).mem = s.mem := rfl
@[simp] theorem moveTo_poison (a : BitVec 16) : (s.moveTo a).poison = s.poison := rfl
@[simp] theorem moveTo_clusters (a : BitVec 16) : (s.moveTo a).clusters = s.clusters := rfl
@[simp] theorem moveTo_presses (a : BitVec 16) : (s.moveTo a).presses = s.presses := rfl
@[simp] theorem moveTo_posted (a : BitVec 16) : (s.moveTo a).posted = s.posted := rfl
@[simp] theorem moveTo_replicas (a : BitVec 16) : (s.moveTo a).replicas = s.replicas := rfl
@[simp] theorem moveTo_pool (a : BitVec 16) : (s.moveTo a).pool = s.pool := rfl
@[simp] theorem moveTo_clocks (a : BitVec 16) : (s.moveTo a).clocks = s.clocks := rfl
@[simp] theorem moveTo_fibre (a : BitVec 16) : (s.moveTo a).fibre = s.fibre := rfl
@[simp] theorem moveTo_fabric (a : BitVec 16) : (s.moveTo a).fabric = s.fabric := rfl
@[simp] theorem moveTo_splice (a : BitVec 16) : (s.moveTo a).splice = s.splice := rfl
@[simp] theorem moveTo_dist (a : BitVec 16) : (s.moveTo a).dist = s.dist := rfl
@[simp] theorem moveTo_mgmt (a : BitVec 16) : (s.moveTo a).mgmt = s.mgmt := rfl
@[simp] theorem moveTo_outbox (a : BitVec 16) : (s.moveTo a).outbox = s.outbox := rfl
@[simp] theorem moveTo_ticket (a : BitVec 16) : (s.moveTo a).ticket = s.ticket := rfl
@[simp] theorem moveTo_freeCtr (a : BitVec 16) : (s.moveTo a).freeCtr = s.freeCtr := rfl
@[simp] theorem moveTo_vault (a : BitVec 16) : (s.moveTo a).vault = s.vault := rfl

/-! ### parkFor -/

@[simp] theorem parkFor_cycle (w : Wait) (x : SlotState) : (s.parkFor w x).cycle = s.cycle := rfl
@[simp] theorem parkFor_time141 (w : Wait) (x : SlotState) : (s.parkFor w x).time141 = s.time141 := rfl
@[simp] theorem parkFor_agenda (w : Wait) (x : SlotState) : (s.parkFor w x).agenda = s.agenda := rfl
@[simp] theorem parkFor_cur (w : Wait) (x : SlotState) : (s.parkFor w x).cur = s.cur := rfl
@[simp] theorem parkFor_slot (w : Wait) (x : SlotState) : (s.parkFor w x).slot = s.slot := rfl
@[simp] theorem parkFor_press (w : Wait) (x : SlotState) : (s.parkFor w x).press = s.press := rfl
@[simp] theorem parkFor_mem (w : Wait) (x : SlotState) : (s.parkFor w x).mem = s.mem := rfl
@[simp] theorem parkFor_poison (w : Wait) (x : SlotState) : (s.parkFor w x).poison = s.poison := rfl
@[simp] theorem parkFor_clusters (w : Wait) (x : SlotState) : (s.parkFor w x).clusters = s.clusters := rfl
@[simp] theorem parkFor_presses (w : Wait) (x : SlotState) : (s.parkFor w x).presses = s.presses := rfl
@[simp] theorem parkFor_posted (w : Wait) (x : SlotState) : (s.parkFor w x).posted = s.posted := rfl
@[simp] theorem parkFor_replicas (w : Wait) (x : SlotState) : (s.parkFor w x).replicas = s.replicas := rfl
@[simp] theorem parkFor_pool (w : Wait) (x : SlotState) : (s.parkFor w x).pool = s.pool := rfl
@[simp] theorem parkFor_clocks (w : Wait) (x : SlotState) : (s.parkFor w x).clocks = s.clocks := rfl
@[simp] theorem parkFor_fibre (w : Wait) (x : SlotState) : (s.parkFor w x).fibre = s.fibre := rfl
@[simp] theorem parkFor_fabric (w : Wait) (x : SlotState) : (s.parkFor w x).fabric = s.fabric := rfl
@[simp] theorem parkFor_splice (w : Wait) (x : SlotState) : (s.parkFor w x).splice = s.splice := rfl
@[simp] theorem parkFor_dist (w : Wait) (x : SlotState) : (s.parkFor w x).dist = s.dist := rfl
@[simp] theorem parkFor_mgmt (w : Wait) (x : SlotState) : (s.parkFor w x).mgmt = s.mgmt := rfl
@[simp] theorem parkFor_outbox (w : Wait) (x : SlotState) : (s.parkFor w x).outbox = s.outbox := rfl
@[simp] theorem parkFor_ticket (w : Wait) (x : SlotState) : (s.parkFor w x).ticket = s.ticket := rfl
@[simp] theorem parkFor_freeCtr (w : Wait) (x : SlotState) : (s.parkFor w x).freeCtr = s.freeCtr := rfl
@[simp] theorem parkFor_vault (w : Wait) (x : SlotState) : (s.parkFor w x).vault = s.vault := rfl

/-! ### setClock -/

@[simp] theorem setClock_cycle (u : Nat) (v : W64) : (s.setClock u v).cycle = s.cycle := rfl
@[simp] theorem setClock_time141 (u : Nat) (v : W64) : (s.setClock u v).time141 = s.time141 := rfl
@[simp] theorem setClock_agenda (u : Nat) (v : W64) : (s.setClock u v).agenda = s.agenda := rfl
@[simp] theorem setClock_cur (u : Nat) (v : W64) : (s.setClock u v).cur = s.cur := rfl
@[simp] theorem setClock_slot (u : Nat) (v : W64) : (s.setClock u v).slot = s.slot := rfl
@[simp] theorem setClock_press (u : Nat) (v : W64) : (s.setClock u v).press = s.press := rfl
@[simp] theorem setClock_mem (u : Nat) (v : W64) : (s.setClock u v).mem = s.mem := rfl
@[simp] theorem setClock_poison (u : Nat) (v : W64) : (s.setClock u v).poison = s.poison := rfl
@[simp] theorem setClock_cores (u : Nat) (v : W64) : (s.setClock u v).cores = s.cores := rfl
@[simp] theorem setClock_clusters (u : Nat) (v : W64) : (s.setClock u v).clusters = s.clusters := rfl
@[simp] theorem setClock_presses (u : Nat) (v : W64) : (s.setClock u v).presses = s.presses := rfl
@[simp] theorem setClock_posted (u : Nat) (v : W64) : (s.setClock u v).posted = s.posted := rfl
@[simp] theorem setClock_replicas (u : Nat) (v : W64) : (s.setClock u v).replicas = s.replicas := rfl
@[simp] theorem setClock_pool (u : Nat) (v : W64) : (s.setClock u v).pool = s.pool := rfl
@[simp] theorem setClock_fibre (u : Nat) (v : W64) : (s.setClock u v).fibre = s.fibre := rfl
@[simp] theorem setClock_fabric (u : Nat) (v : W64) : (s.setClock u v).fabric = s.fabric := rfl
@[simp] theorem setClock_splice (u : Nat) (v : W64) : (s.setClock u v).splice = s.splice := rfl
@[simp] theorem setClock_dist (u : Nat) (v : W64) : (s.setClock u v).dist = s.dist := rfl
@[simp] theorem setClock_mgmt (u : Nat) (v : W64) : (s.setClock u v).mgmt = s.mgmt := rfl
@[simp] theorem setClock_outbox (u : Nat) (v : W64) : (s.setClock u v).outbox = s.outbox := rfl
@[simp] theorem setClock_ticket (u : Nat) (v : W64) : (s.setClock u v).ticket = s.ticket := rfl
@[simp] theorem setClock_freeCtr (u : Nat) (v : W64) : (s.setClock u v).freeCtr = s.freeCtr := rfl
@[simp] theorem setClock_vault (u : Nat) (v : W64) : (s.setClock u v).vault = s.vault := rfl

/-! ### bump -/

@[simp] theorem bump_cycle : s.bump.cycle = s.cycle := rfl
@[simp] theorem bump_time141 : s.bump.time141 = s.time141 := rfl
@[simp] theorem bump_agenda : s.bump.agenda = s.agenda := rfl
@[simp] theorem bump_cur : s.bump.cur = s.cur := rfl
@[simp] theorem bump_slot : s.bump.slot = s.slot := rfl
@[simp] theorem bump_press : s.bump.press = s.press := rfl
@[simp] theorem bump_mem : s.bump.mem = s.mem := rfl
@[simp] theorem bump_poison : s.bump.poison = s.poison := rfl
@[simp] theorem bump_cores : s.bump.cores = s.cores := rfl
@[simp] theorem bump_clusters : s.bump.clusters = s.clusters := rfl
@[simp] theorem bump_presses : s.bump.presses = s.presses := rfl
@[simp] theorem bump_posted : s.bump.posted = s.posted := rfl
@[simp] theorem bump_replicas : s.bump.replicas = s.replicas := rfl
@[simp] theorem bump_pool : s.bump.pool = s.pool := rfl
@[simp] theorem bump_clocks : s.bump.clocks = s.clocks := rfl
@[simp] theorem bump_fibre : s.bump.fibre = s.fibre := rfl
@[simp] theorem bump_fabric : s.bump.fabric = s.fabric := rfl
@[simp] theorem bump_splice : s.bump.splice = s.splice := rfl
@[simp] theorem bump_dist : s.bump.dist = s.dist := rfl
@[simp] theorem bump_mgmt : s.bump.mgmt = s.mgmt := rfl
@[simp] theorem bump_outbox : s.bump.outbox = s.outbox := rfl
@[simp] theorem bump_freeCtr : s.bump.freeCtr = s.freeCtr := rfl
@[simp] theorem bump_vault : s.bump.vault = s.vault := rfl

/-! ### put -/

@[simp] theorem put_cycle (a : Nat) (bs : List Byte) : (s.put a bs).cycle = s.cycle := rfl
@[simp] theorem put_time141 (a : Nat) (bs : List Byte) : (s.put a bs).time141 = s.time141 := rfl
@[simp] theorem put_agenda (a : Nat) (bs : List Byte) : (s.put a bs).agenda = s.agenda := rfl
@[simp] theorem put_cur (a : Nat) (bs : List Byte) : (s.put a bs).cur = s.cur := rfl
@[simp] theorem put_slot (a : Nat) (bs : List Byte) : (s.put a bs).slot = s.slot := rfl
@[simp] theorem put_press (a : Nat) (bs : List Byte) : (s.put a bs).press = s.press := rfl
@[simp] theorem put_cores (a : Nat) (bs : List Byte) : (s.put a bs).cores = s.cores := rfl
@[simp] theorem put_clusters (a : Nat) (bs : List Byte) : (s.put a bs).clusters = s.clusters := rfl
@[simp] theorem put_presses (a : Nat) (bs : List Byte) : (s.put a bs).presses = s.presses := rfl
@[simp] theorem put_posted (a : Nat) (bs : List Byte) : (s.put a bs).posted = s.posted := rfl
@[simp] theorem put_replicas (a : Nat) (bs : List Byte) : (s.put a bs).replicas = s.replicas := rfl
@[simp] theorem put_pool (a : Nat) (bs : List Byte) : (s.put a bs).pool = s.pool := rfl
@[simp] theorem put_clocks (a : Nat) (bs : List Byte) : (s.put a bs).clocks = s.clocks := rfl
@[simp] theorem put_fibre (a : Nat) (bs : List Byte) : (s.put a bs).fibre = s.fibre := rfl
@[simp] theorem put_fabric (a : Nat) (bs : List Byte) : (s.put a bs).fabric = s.fabric := rfl
@[simp] theorem put_splice (a : Nat) (bs : List Byte) : (s.put a bs).splice = s.splice := rfl
@[simp] theorem put_dist (a : Nat) (bs : List Byte) : (s.put a bs).dist = s.dist := rfl
@[simp] theorem put_mgmt (a : Nat) (bs : List Byte) : (s.put a bs).mgmt = s.mgmt := rfl
@[simp] theorem put_outbox (a : Nat) (bs : List Byte) : (s.put a bs).outbox = s.outbox := rfl
@[simp] theorem put_ticket (a : Nat) (bs : List Byte) : (s.put a bs).ticket = s.ticket := rfl
@[simp] theorem put_freeCtr (a : Nat) (bs : List Byte) : (s.put a bs).freeCtr = s.freeCtr := rfl
@[simp] theorem put_vault (a : Nat) (bs : List Byte) : (s.put a bs).vault = s.vault := rfl

/-! ### putNum -/

@[simp] theorem putNum_cycle (a n v : Nat) : (s.putNum a n v).cycle = s.cycle := rfl
@[simp] theorem putNum_time141 (a n v : Nat) : (s.putNum a n v).time141 = s.time141 := rfl
@[simp] theorem putNum_agenda (a n v : Nat) : (s.putNum a n v).agenda = s.agenda := rfl
@[simp] theorem putNum_cur (a n v : Nat) : (s.putNum a n v).cur = s.cur := rfl
@[simp] theorem putNum_slot (a n v : Nat) : (s.putNum a n v).slot = s.slot := rfl
@[simp] theorem putNum_press (a n v : Nat) : (s.putNum a n v).press = s.press := rfl
@[simp] theorem putNum_cores (a n v : Nat) : (s.putNum a n v).cores = s.cores := rfl
@[simp] theorem putNum_clusters (a n v : Nat) : (s.putNum a n v).clusters = s.clusters := rfl
@[simp] theorem putNum_presses (a n v : Nat) : (s.putNum a n v).presses = s.presses := rfl
@[simp] theorem putNum_posted (a n v : Nat) : (s.putNum a n v).posted = s.posted := rfl
@[simp] theorem putNum_replicas (a n v : Nat) : (s.putNum a n v).replicas = s.replicas := rfl
@[simp] theorem putNum_pool (a n v : Nat) : (s.putNum a n v).pool = s.pool := rfl
@[simp] theorem putNum_clocks (a n v : Nat) : (s.putNum a n v).clocks = s.clocks := rfl
@[simp] theorem putNum_fibre (a n v : Nat) : (s.putNum a n v).fibre = s.fibre := rfl
@[simp] theorem putNum_fabric (a n v : Nat) : (s.putNum a n v).fabric = s.fabric := rfl
@[simp] theorem putNum_splice (a n v : Nat) : (s.putNum a n v).splice = s.splice := rfl
@[simp] theorem putNum_dist (a n v : Nat) : (s.putNum a n v).dist = s.dist := rfl
@[simp] theorem putNum_mgmt (a n v : Nat) : (s.putNum a n v).mgmt = s.mgmt := rfl
@[simp] theorem putNum_outbox (a n v : Nat) : (s.putNum a n v).outbox = s.outbox := rfl
@[simp] theorem putNum_ticket (a n v : Nat) : (s.putNum a n v).ticket = s.ticket := rfl
@[simp] theorem putNum_freeCtr (a n v : Nat) : (s.putNum a n v).freeCtr = s.freeCtr := rfl
@[simp] theorem putNum_vault (a n v : Nat) : (s.putNum a n v).vault = s.vault := rfl

/-! ### zero -/

@[simp] theorem zero_cycle (a n : Nat) : (s.zero a n).cycle = s.cycle := rfl
@[simp] theorem zero_time141 (a n : Nat) : (s.zero a n).time141 = s.time141 := rfl
@[simp] theorem zero_agenda (a n : Nat) : (s.zero a n).agenda = s.agenda := rfl
@[simp] theorem zero_cur (a n : Nat) : (s.zero a n).cur = s.cur := rfl
@[simp] theorem zero_slot (a n : Nat) : (s.zero a n).slot = s.slot := rfl
@[simp] theorem zero_press (a n : Nat) : (s.zero a n).press = s.press := rfl
@[simp] theorem zero_cores (a n : Nat) : (s.zero a n).cores = s.cores := rfl
@[simp] theorem zero_clusters (a n : Nat) : (s.zero a n).clusters = s.clusters := rfl
@[simp] theorem zero_presses (a n : Nat) : (s.zero a n).presses = s.presses := rfl
@[simp] theorem zero_posted (a n : Nat) : (s.zero a n).posted = s.posted := rfl
@[simp] theorem zero_replicas (a n : Nat) : (s.zero a n).replicas = s.replicas := rfl
@[simp] theorem zero_pool (a n : Nat) : (s.zero a n).pool = s.pool := rfl
@[simp] theorem zero_clocks (a n : Nat) : (s.zero a n).clocks = s.clocks := rfl
@[simp] theorem zero_fibre (a n : Nat) : (s.zero a n).fibre = s.fibre := rfl
@[simp] theorem zero_fabric (a n : Nat) : (s.zero a n).fabric = s.fabric := rfl
@[simp] theorem zero_splice (a n : Nat) : (s.zero a n).splice = s.splice := rfl
@[simp] theorem zero_dist (a n : Nat) : (s.zero a n).dist = s.dist := rfl
@[simp] theorem zero_mgmt (a n : Nat) : (s.zero a n).mgmt = s.mgmt := rfl
@[simp] theorem zero_outbox (a n : Nat) : (s.zero a n).outbox = s.outbox := rfl
@[simp] theorem zero_ticket (a n : Nat) : (s.zero a n).ticket = s.ticket := rfl
@[simp] theorem zero_freeCtr (a n : Nat) : (s.zero a n).freeCtr = s.freeCtr := rfl
@[simp] theorem zero_vault (a n : Nat) : (s.zero a n).vault = s.vault := rfl

/-! ### post -/

@[simp] theorem post_cycle (d : PostDest) (a : W64) (bs : List Byte) : (s.post d a bs).cycle = s.cycle := rfl
@[simp] theorem post_time141 (d : PostDest) (a : W64) (bs : List Byte) : (s.post d a bs).time141 = s.time141 := rfl
@[simp] theorem post_agenda (d : PostDest) (a : W64) (bs : List Byte) : (s.post d a bs).agenda = s.agenda := rfl
@[simp] theorem post_cur (d : PostDest) (a : W64) (bs : List Byte) : (s.post d a bs).cur = s.cur := rfl
@[simp] theorem post_slot (d : PostDest) (a : W64) (bs : List Byte) : (s.post d a bs).slot = s.slot := rfl
@[simp] theorem post_press (d : PostDest) (a : W64) (bs : List Byte) : (s.post d a bs).press = s.press := rfl
@[simp] theorem post_mem (d : PostDest) (a : W64) (bs : List Byte) : (s.post d a bs).mem = s.mem := rfl
@[simp] theorem post_poison (d : PostDest) (a : W64) (bs : List Byte) : (s.post d a bs).poison = s.poison := rfl
@[simp] theorem post_cores (d : PostDest) (a : W64) (bs : List Byte) : (s.post d a bs).cores = s.cores := rfl
@[simp] theorem post_clusters (d : PostDest) (a : W64) (bs : List Byte) : (s.post d a bs).clusters = s.clusters := rfl
@[simp] theorem post_presses (d : PostDest) (a : W64) (bs : List Byte) : (s.post d a bs).presses = s.presses := rfl
@[simp] theorem post_replicas (d : PostDest) (a : W64) (bs : List Byte) : (s.post d a bs).replicas = s.replicas := rfl
@[simp] theorem post_pool (d : PostDest) (a : W64) (bs : List Byte) : (s.post d a bs).pool = s.pool := rfl
@[simp] theorem post_clocks (d : PostDest) (a : W64) (bs : List Byte) : (s.post d a bs).clocks = s.clocks := rfl
@[simp] theorem post_fibre (d : PostDest) (a : W64) (bs : List Byte) : (s.post d a bs).fibre = s.fibre := rfl
@[simp] theorem post_fabric (d : PostDest) (a : W64) (bs : List Byte) : (s.post d a bs).fabric = s.fabric := rfl
@[simp] theorem post_splice (d : PostDest) (a : W64) (bs : List Byte) : (s.post d a bs).splice = s.splice := rfl
@[simp] theorem post_dist (d : PostDest) (a : W64) (bs : List Byte) : (s.post d a bs).dist = s.dist := rfl
@[simp] theorem post_mgmt (d : PostDest) (a : W64) (bs : List Byte) : (s.post d a bs).mgmt = s.mgmt := rfl
@[simp] theorem post_outbox (d : PostDest) (a : W64) (bs : List Byte) : (s.post d a bs).outbox = s.outbox := rfl
@[simp] theorem post_ticket (d : PostDest) (a : W64) (bs : List Byte) : (s.post d a bs).ticket = s.ticket := rfl
@[simp] theorem post_freeCtr (d : PostDest) (a : W64) (bs : List Byte) : (s.post d a bs).freeCtr = s.freeCtr := rfl
@[simp] theorem post_vault (d : PostDest) (a : W64) (bs : List Byte) : (s.post d a bs).vault = s.vault := rfl

/-! ### setCluster -/

@[simp] theorem setCluster_cycle (n : Nat) (c : Cluster) : (s.setCluster n c).cycle = s.cycle := rfl
@[simp] theorem setCluster_time141 (n : Nat) (c : Cluster) : (s.setCluster n c).time141 = s.time141 := rfl
@[simp] theorem setCluster_agenda (n : Nat) (c : Cluster) : (s.setCluster n c).agenda = s.agenda := rfl
@[simp] theorem setCluster_cur (n : Nat) (c : Cluster) : (s.setCluster n c).cur = s.cur := rfl
@[simp] theorem setCluster_slot (n : Nat) (c : Cluster) : (s.setCluster n c).slot = s.slot := rfl
@[simp] theorem setCluster_press (n : Nat) (c : Cluster) : (s.setCluster n c).press = s.press := rfl
@[simp] theorem setCluster_mem (n : Nat) (c : Cluster) : (s.setCluster n c).mem = s.mem := rfl
@[simp] theorem setCluster_poison (n : Nat) (c : Cluster) : (s.setCluster n c).poison = s.poison := rfl
@[simp] theorem setCluster_cores (n : Nat) (c : Cluster) : (s.setCluster n c).cores = s.cores := rfl
@[simp] theorem setCluster_presses (n : Nat) (c : Cluster) : (s.setCluster n c).presses = s.presses := rfl
@[simp] theorem setCluster_posted (n : Nat) (c : Cluster) : (s.setCluster n c).posted = s.posted := rfl
@[simp] theorem setCluster_replicas (n : Nat) (c : Cluster) : (s.setCluster n c).replicas = s.replicas := rfl
@[simp] theorem setCluster_pool (n : Nat) (c : Cluster) : (s.setCluster n c).pool = s.pool := rfl
@[simp] theorem setCluster_clocks (n : Nat) (c : Cluster) : (s.setCluster n c).clocks = s.clocks := rfl
@[simp] theorem setCluster_fibre (n : Nat) (c : Cluster) : (s.setCluster n c).fibre = s.fibre := rfl
@[simp] theorem setCluster_fabric (n : Nat) (c : Cluster) : (s.setCluster n c).fabric = s.fabric := rfl
@[simp] theorem setCluster_splice (n : Nat) (c : Cluster) : (s.setCluster n c).splice = s.splice := rfl
@[simp] theorem setCluster_dist (n : Nat) (c : Cluster) : (s.setCluster n c).dist = s.dist := rfl
@[simp] theorem setCluster_mgmt (n : Nat) (c : Cluster) : (s.setCluster n c).mgmt = s.mgmt := rfl
@[simp] theorem setCluster_outbox (n : Nat) (c : Cluster) : (s.setCluster n c).outbox = s.outbox := rfl
@[simp] theorem setCluster_ticket (n : Nat) (c : Cluster) : (s.setCluster n c).ticket = s.ticket := rfl
@[simp] theorem setCluster_freeCtr (n : Nat) (c : Cluster) : (s.setCluster n c).freeCtr = s.freeCtr := rfl
@[simp] theorem setCluster_vault (n : Nat) (c : Cluster) : (s.setCluster n c).vault = s.vault := rfl

/-! ### updCluster -/

@[simp] theorem updCluster_cycle (n : Nat) (f : Cluster → Cluster) : (s.updCluster n f).cycle = s.cycle := rfl
@[simp] theorem updCluster_time141 (n : Nat) (f : Cluster → Cluster) : (s.updCluster n f).time141 = s.time141 := rfl
@[simp] theorem updCluster_agenda (n : Nat) (f : Cluster → Cluster) : (s.updCluster n f).agenda = s.agenda := rfl
@[simp] theorem updCluster_cur (n : Nat) (f : Cluster → Cluster) : (s.updCluster n f).cur = s.cur := rfl
@[simp] theorem updCluster_slot (n : Nat) (f : Cluster → Cluster) : (s.updCluster n f).slot = s.slot := rfl
@[simp] theorem updCluster_press (n : Nat) (f : Cluster → Cluster) : (s.updCluster n f).press = s.press := rfl
@[simp] theorem updCluster_mem (n : Nat) (f : Cluster → Cluster) : (s.updCluster n f).mem = s.mem := rfl
@[simp] theorem updCluster_poison (n : Nat) (f : Cluster → Cluster) : (s.updCluster n f).poison = s.poison := rfl
@[simp] theorem updCluster_cores (n : Nat) (f : Cluster → Cluster) : (s.updCluster n f).cores = s.cores := rfl
@[simp] theorem updCluster_presses (n : Nat) (f : Cluster → Cluster) : (s.updCluster n f).presses = s.presses := rfl
@[simp] theorem updCluster_posted (n : Nat) (f : Cluster → Cluster) : (s.updCluster n f).posted = s.posted := rfl
@[simp] theorem updCluster_replicas (n : Nat) (f : Cluster → Cluster) : (s.updCluster n f).replicas = s.replicas := rfl
@[simp] theorem updCluster_pool (n : Nat) (f : Cluster → Cluster) : (s.updCluster n f).pool = s.pool := rfl
@[simp] theorem updCluster_clocks (n : Nat) (f : Cluster → Cluster) : (s.updCluster n f).clocks = s.clocks := rfl
@[simp] theorem updCluster_fibre (n : Nat) (f : Cluster → Cluster) : (s.updCluster n f).fibre = s.fibre := rfl
@[simp] theorem updCluster_fabric (n : Nat) (f : Cluster → Cluster) : (s.updCluster n f).fabric = s.fabric := rfl
@[simp] theorem updCluster_splice (n : Nat) (f : Cluster → Cluster) : (s.updCluster n f).splice = s.splice := rfl
@[simp] theorem updCluster_dist (n : Nat) (f : Cluster → Cluster) : (s.updCluster n f).dist = s.dist := rfl
@[simp] theorem updCluster_mgmt (n : Nat) (f : Cluster → Cluster) : (s.updCluster n f).mgmt = s.mgmt := rfl
@[simp] theorem updCluster_outbox (n : Nat) (f : Cluster → Cluster) : (s.updCluster n f).outbox = s.outbox := rfl
@[simp] theorem updCluster_ticket (n : Nat) (f : Cluster → Cluster) : (s.updCluster n f).ticket = s.ticket := rfl
@[simp] theorem updCluster_freeCtr (n : Nat) (f : Cluster → Cluster) : (s.updCluster n f).freeCtr = s.freeCtr := rfl
@[simp] theorem updCluster_vault (n : Nat) (f : Cluster → Cluster) : (s.updCluster n f).vault = s.vault := rfl

/-! ### setBuf -/

@[simp] theorem setBuf_cycle (n b : Nat) (x : Buffer) : (s.setBuf n b x).cycle = s.cycle := rfl
@[simp] theorem setBuf_time141 (n b : Nat) (x : Buffer) : (s.setBuf n b x).time141 = s.time141 := rfl
@[simp] theorem setBuf_agenda (n b : Nat) (x : Buffer) : (s.setBuf n b x).agenda = s.agenda := rfl
@[simp] theorem setBuf_cur (n b : Nat) (x : Buffer) : (s.setBuf n b x).cur = s.cur := rfl
@[simp] theorem setBuf_slot (n b : Nat) (x : Buffer) : (s.setBuf n b x).slot = s.slot := rfl
@[simp] theorem setBuf_press (n b : Nat) (x : Buffer) : (s.setBuf n b x).press = s.press := rfl
@[simp] theorem setBuf_mem (n b : Nat) (x : Buffer) : (s.setBuf n b x).mem = s.mem := rfl
@[simp] theorem setBuf_poison (n b : Nat) (x : Buffer) : (s.setBuf n b x).poison = s.poison := rfl
@[simp] theorem setBuf_cores (n b : Nat) (x : Buffer) : (s.setBuf n b x).cores = s.cores := rfl
@[simp] theorem setBuf_presses (n b : Nat) (x : Buffer) : (s.setBuf n b x).presses = s.presses := rfl
@[simp] theorem setBuf_posted (n b : Nat) (x : Buffer) : (s.setBuf n b x).posted = s.posted := rfl
@[simp] theorem setBuf_replicas (n b : Nat) (x : Buffer) : (s.setBuf n b x).replicas = s.replicas := rfl
@[simp] theorem setBuf_pool (n b : Nat) (x : Buffer) : (s.setBuf n b x).pool = s.pool := rfl
@[simp] theorem setBuf_clocks (n b : Nat) (x : Buffer) : (s.setBuf n b x).clocks = s.clocks := rfl
@[simp] theorem setBuf_fibre (n b : Nat) (x : Buffer) : (s.setBuf n b x).fibre = s.fibre := rfl
@[simp] theorem setBuf_fabric (n b : Nat) (x : Buffer) : (s.setBuf n b x).fabric = s.fabric := rfl
@[simp] theorem setBuf_splice (n b : Nat) (x : Buffer) : (s.setBuf n b x).splice = s.splice := rfl
@[simp] theorem setBuf_dist (n b : Nat) (x : Buffer) : (s.setBuf n b x).dist = s.dist := rfl
@[simp] theorem setBuf_mgmt (n b : Nat) (x : Buffer) : (s.setBuf n b x).mgmt = s.mgmt := rfl
@[simp] theorem setBuf_outbox (n b : Nat) (x : Buffer) : (s.setBuf n b x).outbox = s.outbox := rfl
@[simp] theorem setBuf_ticket (n b : Nat) (x : Buffer) : (s.setBuf n b x).ticket = s.ticket := rfl
@[simp] theorem setBuf_freeCtr (n b : Nat) (x : Buffer) : (s.setBuf n b x).freeCtr = s.freeCtr := rfl
@[simp] theorem setBuf_vault (n b : Nat) (x : Buffer) : (s.setBuf n b x).vault = s.vault := rfl

/-! ### setPress -/

@[simp] theorem setPress_cycle (p : Nat) (x : Press) : (s.setPress p x).cycle = s.cycle := rfl
@[simp] theorem setPress_time141 (p : Nat) (x : Press) : (s.setPress p x).time141 = s.time141 := rfl
@[simp] theorem setPress_agenda (p : Nat) (x : Press) : (s.setPress p x).agenda = s.agenda := rfl
@[simp] theorem setPress_cur (p : Nat) (x : Press) : (s.setPress p x).cur = s.cur := rfl
@[simp] theorem setPress_slot (p : Nat) (x : Press) : (s.setPress p x).slot = s.slot := rfl
@[simp] theorem setPress_press (p : Nat) (x : Press) : (s.setPress p x).press = s.press := rfl
@[simp] theorem setPress_mem (p : Nat) (x : Press) : (s.setPress p x).mem = s.mem := rfl
@[simp] theorem setPress_poison (p : Nat) (x : Press) : (s.setPress p x).poison = s.poison := rfl
@[simp] theorem setPress_cores (p : Nat) (x : Press) : (s.setPress p x).cores = s.cores := rfl
@[simp] theorem setPress_clusters (p : Nat) (x : Press) : (s.setPress p x).clusters = s.clusters := rfl
@[simp] theorem setPress_posted (p : Nat) (x : Press) : (s.setPress p x).posted = s.posted := rfl
@[simp] theorem setPress_replicas (p : Nat) (x : Press) : (s.setPress p x).replicas = s.replicas := rfl
@[simp] theorem setPress_pool (p : Nat) (x : Press) : (s.setPress p x).pool = s.pool := rfl
@[simp] theorem setPress_clocks (p : Nat) (x : Press) : (s.setPress p x).clocks = s.clocks := rfl
@[simp] theorem setPress_fibre (p : Nat) (x : Press) : (s.setPress p x).fibre = s.fibre := rfl
@[simp] theorem setPress_fabric (p : Nat) (x : Press) : (s.setPress p x).fabric = s.fabric := rfl
@[simp] theorem setPress_splice (p : Nat) (x : Press) : (s.setPress p x).splice = s.splice := rfl
@[simp] theorem setPress_dist (p : Nat) (x : Press) : (s.setPress p x).dist = s.dist := rfl
@[simp] theorem setPress_mgmt (p : Nat) (x : Press) : (s.setPress p x).mgmt = s.mgmt := rfl
@[simp] theorem setPress_outbox (p : Nat) (x : Press) : (s.setPress p x).outbox = s.outbox := rfl
@[simp] theorem setPress_ticket (p : Nat) (x : Press) : (s.setPress p x).ticket = s.ticket := rfl
@[simp] theorem setPress_freeCtr (p : Nat) (x : Press) : (s.setPress p x).freeCtr = s.freeCtr := rfl
@[simp] theorem setPress_vault (p : Nat) (x : Press) : (s.setPress p x).vault = s.vault := rfl

/-! ### updPress -/

@[simp] theorem updPress_cycle (p : Nat) (f : Press → Press) : (s.updPress p f).cycle = s.cycle := rfl
@[simp] theorem updPress_time141 (p : Nat) (f : Press → Press) : (s.updPress p f).time141 = s.time141 := rfl
@[simp] theorem updPress_agenda (p : Nat) (f : Press → Press) : (s.updPress p f).agenda = s.agenda := rfl
@[simp] theorem updPress_cur (p : Nat) (f : Press → Press) : (s.updPress p f).cur = s.cur := rfl
@[simp] theorem updPress_slot (p : Nat) (f : Press → Press) : (s.updPress p f).slot = s.slot := rfl
@[simp] theorem updPress_press (p : Nat) (f : Press → Press) : (s.updPress p f).press = s.press := rfl
@[simp] theorem updPress_mem (p : Nat) (f : Press → Press) : (s.updPress p f).mem = s.mem := rfl
@[simp] theorem updPress_poison (p : Nat) (f : Press → Press) : (s.updPress p f).poison = s.poison := rfl
@[simp] theorem updPress_cores (p : Nat) (f : Press → Press) : (s.updPress p f).cores = s.cores := rfl
@[simp] theorem updPress_clusters (p : Nat) (f : Press → Press) : (s.updPress p f).clusters = s.clusters := rfl
@[simp] theorem updPress_posted (p : Nat) (f : Press → Press) : (s.updPress p f).posted = s.posted := rfl
@[simp] theorem updPress_replicas (p : Nat) (f : Press → Press) : (s.updPress p f).replicas = s.replicas := rfl
@[simp] theorem updPress_pool (p : Nat) (f : Press → Press) : (s.updPress p f).pool = s.pool := rfl
@[simp] theorem updPress_clocks (p : Nat) (f : Press → Press) : (s.updPress p f).clocks = s.clocks := rfl
@[simp] theorem updPress_fibre (p : Nat) (f : Press → Press) : (s.updPress p f).fibre = s.fibre := rfl
@[simp] theorem updPress_fabric (p : Nat) (f : Press → Press) : (s.updPress p f).fabric = s.fabric := rfl
@[simp] theorem updPress_splice (p : Nat) (f : Press → Press) : (s.updPress p f).splice = s.splice := rfl
@[simp] theorem updPress_dist (p : Nat) (f : Press → Press) : (s.updPress p f).dist = s.dist := rfl
@[simp] theorem updPress_mgmt (p : Nat) (f : Press → Press) : (s.updPress p f).mgmt = s.mgmt := rfl
@[simp] theorem updPress_outbox (p : Nat) (f : Press → Press) : (s.updPress p f).outbox = s.outbox := rfl
@[simp] theorem updPress_ticket (p : Nat) (f : Press → Press) : (s.updPress p f).ticket = s.ticket := rfl
@[simp] theorem updPress_freeCtr (p : Nat) (f : Press → Press) : (s.updPress p f).freeCtr = s.freeCtr := rfl
@[simp] theorem updPress_vault (p : Nat) (f : Press → Press) : (s.updPress p f).vault = s.vault := rfl

end Sys2Proof.Machine
end

