-- ==== Sys2Proof/Laws/Table.lean ====
section
/-! SUPPORT. Laws of the tables keyed by numbers: reading after writing, and the canonical form. -/
namespace Sys2Proof.Machine

variable {α : Type}

/-! ### Reading after an update -/

@[simp] theorem mget_nil (d : α) (k : Nat) : mget d [] k = d := rfl

theorem mget_merase_same (d : α) (m : Map α) (k : Nat) : mget d (merase m k) k = d := by
  induction m with
  | nil => rfl
  | cons e m ih => by_cases h : e.1 = k <;> simp [merase, mget, h, ih]

theorem mget_merase_ne (d : α) (m : Map α) {k j : Nat} (h : j ≠ k) : mget d (merase m k) j = mget d m j := by
  induction m with
  | nil => rfl
  | cons e m ih =>
    obtain ⟨i, v⟩ := e
    by_cases h1 : i = k
    · subst h1; simp [merase, mget, ih, Ne.symm h]
    · by_cases h2 : i = j <;> simp [merase, mget, h1, h2, ih]
      subst h2; simp [h1, mget]

theorem mget_mins_same (d : α) (m : Map α) (k : Nat) (v : α) : mget d (mins (merase m k) k v) k = v := by
  induction m with
  | nil => simp [merase, mins, mget]
  | cons e m ih =>
    by_cases h1 : e.1 = k
    · simpa [merase, h1] using ih
    · by_cases h2 : k < e.1 <;> simp [merase, mins, mget, h1, h2, ih]

theorem mget_mins_ne (d : α) (m : Map α) {k j : Nat} (v : α) (h : j ≠ k) : mget d (mins m k v) j = mget d m j := by
  induction m with
  | nil => simp [mins, mget, Ne.symm h]
  | cons e m ih =>
    obtain ⟨i, w⟩ := e
    by_cases h2 : k < i
    · simp [mins, mget, h2, Ne.symm h]
    · by_cases h3 : i = j
      · subst h3; simp [mins, mget, h2]
      · simp [mins, mget, h2, h3, ih]

@[simp] theorem mget_mset_same [DecidableEq α] (d : α) (m : Map α) (k : Nat) (v : α) : mget d (mset d m k v) k = v := by
  unfold mset
  split
  · next h => rw [mget_merase_same, h]
  · exact mget_mins_same d m k v

theorem mget_mset_ne [DecidableEq α] (d : α) (m : Map α) {k j : Nat} (v : α) (h : j ≠ k) :
    mget d (mset d m k v) j = mget d m j := by
  unfold mset
  split
  · exact mget_merase_ne d m h
  · rw [mget_mins_ne d _ v h, mget_merase_ne d m h]

theorem mget_mset [DecidableEq α] (d : α) (m : Map α) (k j : Nat) (v : α) :
    mget d (mset d m k v) j = if j = k then v else mget d m j := by
  split
  · next h => rw [h, mget_mset_same]
  · next h => exact mget_mset_ne d m v h

/-! ### Two updates of one key -/

theorem merase_idem (m : Map α) (k : Nat) : merase (merase m k) k = merase m k := by
  induction m with
  | nil => rfl
  | cons e m ih => by_cases h : e.1 = k <;> simp [merase, h, ih]

theorem merase_mins (m : Map α) (k : Nat) (v : α) : merase (mins m k v) k = merase m k := by
  induction m with
  | nil => simp [mins, merase]
  | cons e m ih =>
    by_cases h2 : k < e.1
    · simp [mins, merase, h2]
    · by_cases h : e.1 = k <;> simp [mins, merase, h2, h, ih]

@[simp] theorem merase_mset [DecidableEq α] (d : α) (m : Map α) (k : Nat) (v : α) : merase (mset d m k v) k = merase m k := by
  unfold mset
  split
  · exact merase_idem m k
  · rw [merase_mins, merase_idem]

@[simp] theorem mset_mset [DecidableEq α] (d : α) (m : Map α) (k : Nat) (v w : α) :
    mset d (mset d m k v) k w = mset d m k w := by
  conv_lhs => rw [mset]
  rw [merase_mset, ← mset.eq_1]

/-! ### The canonical form -/

theorem all_merase {m : Map α} {k : Nat} {p : Nat × α → Bool} (h : m.all p = true) : (merase m k).all p = true := by
  induction m with
  | nil => rfl
  | cons e m ih =>
    rw [List.all_cons, Bool.and_eq_true] at h
    by_cases h1 : e.1 = k
    · simpa [merase, h1] using ih h.2
    · simp [merase, h1, h.1]
      simpa using ih h.2

theorem all_mins {m : Map α} {k : Nat} {v : α} {p : Nat × α → Bool} (h : m.all p = true) (hk : p (k, v) = true) :
    (mins m k v).all p = true := by
  induction m with
  | nil => simpa [mins] using hk
  | cons e m ih =>
    rw [List.all_cons, Bool.and_eq_true] at h
    by_cases h1 : k < e.1
    · simp only [mins, h1, if_true, List.all_cons, hk, h.1, Bool.true_and, h.2]
    · simp only [mins, h1, if_false, List.all_cons, h.1, Bool.true_and]
      exact ih h.2

theorem mwf_merase [DecidableEq α] {d : α} {m : Map α} (k : Nat) (h : mwf d m = true) : mwf d (merase m k) = true := by
  induction m with
  | nil => rfl
  | cons e m ih =>
    simp only [mwf, Bool.and_eq_true] at h
    by_cases h1 : e.1 = k
    · simpa [merase, h1] using ih h.2
    · simp only [merase, h1, if_false, mwf, Bool.and_eq_true]
      exact ⟨⟨h.1.1, all_merase h.1.2⟩, ih h.2⟩

theorem mwf_mins [DecidableEq α] {d : α} {m : Map α} {k : Nat} {v : α} (h : mwf d m = true) (hv : v ≠ d)
    (hk : ∀ e ∈ m, e.1 ≠ k) : mwf d (mins m k v) = true := by
  induction m with
  | nil => simp [mins, mwf, hv]
  | cons e m ih =>
    simp only [mwf, Bool.and_eq_true] at h
    by_cases h1 : k < e.1
    · rw [mins, if_pos h1]
      have h3 : (m.all fun x => decide (k < x.1)) = true := by
        rw [List.all_eq_true]
        intro x hx
        have := List.all_eq_true.mp h.1.2 x hx
        simp only [decide_eq_true_eq] at this ⊢
        omega
      simp only [mwf, Bool.and_eq_true, List.all_cons, decide_eq_true_eq]
      exact ⟨⟨hv, h1, h3⟩, ⟨by simpa using h.1.1, h.1.2⟩, h.2⟩
    · have h2 : e.1 ≠ k := hk e (by simp)
      simp only [mins, h1, if_false, mwf, Bool.and_eq_true]
      refine ⟨⟨h.1.1, all_mins h.1.2 ?_⟩, ih h.2 (fun x hx => hk x (by simp [hx]))⟩
      simp only [decide_eq_true_eq]
      omega

theorem not_mem_merase {m : Map α} {k : Nat} : ∀ e ∈ merase m k, e.1 ≠ k := by
  induction m with
  | nil => intro e he; cases he
  | cons x m ih =>
    by_cases h : x.1 = k
    · simpa [merase, h] using ih
    · intro e he
      simp only [merase, h, if_false, List.mem_cons] at he
      rcases he with rfl | he
      · exact h
      · exact ih e he

/-- An update keeps the canonical form. -/
theorem mwf_mset [DecidableEq α] {d : α} {m : Map α} (k : Nat) (v : α) (h : mwf d m = true) : mwf d (mset d m k v) = true := by
  unfold mset
  split
  · exact mwf_merase k h
  · next hv => exact mwf_mins (mwf_merase k h) hv not_mem_merase

/-- The range cut keeps the canonical form. -/
theorem mwf_mcut [DecidableEq α] {d : α} {m : Map α} (a n : Nat) (h : mwf d m = true) : mwf d (mcut m a n) = true := by
  unfold mcut
  induction m with
  | nil => rfl
  | cons e m ih =>
    simp only [mwf, Bool.and_eq_true] at h
    rw [List.filter_cons]
    split
    · simp only [mwf, Bool.and_eq_true]
      refine ⟨⟨h.1.1, ?_⟩, ih h.2⟩
      rw [List.all_eq_true] at h ⊢
      intro x hx
      exact h.1.2 x (List.mem_of_mem_filter hx)
    · exact ih h.2

theorem mget_mcut (d : α) (m : Map α) (a n k : Nat) :
    mget d (mcut m a n) k = if k < a ∨ a + n ≤ k then mget d m k else d := by
  unfold mcut
  induction m with
  | nil => simp
  | cons e m ih =>
    rw [List.filter_cons]
    by_cases h1 : e.1 = k
    · by_cases h2 : e.1 < a ∨ a + n ≤ e.1
      · have h3 : k < a ∨ a + n ≤ k := by rw [← h1]; exact h2
        have h4 : (decide (e.1 < a) || decide (a + n ≤ e.1)) = true := by simpa using h2
        rw [if_pos h4, if_pos h3]; simp [mget, h1]
      · have h3 : ¬ (k < a ∨ a + n ≤ k) := by rw [← h1]; exact h2
        have h4 : ¬ (decide (e.1 < a) || decide (a + n ≤ e.1)) = true := by simpa using h2
        rw [if_neg h4, ih, if_neg h3, if_neg h3]
    · by_cases h4 : (decide (e.1 < a) || decide (a + n ≤ e.1)) = true
      · rw [if_pos h4]; simp [mget, h1, ih]
      · rw [if_neg h4, ih]; simp [mget, h1]

/-! ### Bytes -/

theorem mget_writeBytes (m : List Host.Cell) (a : Nat) (bs : List Byte) (k : Nat) :
    mget 0 (writeBytes m a bs) k = if a ≤ k ∧ k < a + bs.length then nth 0 bs (k - a) else mget 0 m k := by
  induction bs generalizing m a with
  | nil => simp only [writeBytes, List.length_nil]; rw [if_neg (by omega)]
  | cons b bs ih =>
    rw [writeBytes, ih, mget_mset, List.length_cons]
    by_cases h1 : k = a
    · subst h1; rw [if_neg (by omega), if_pos rfl, if_pos (by omega)]; simp [nth]
    · rw [if_neg h1]
      by_cases h2 : a + 1 ≤ k ∧ k < a + 1 + bs.length
      · obtain ⟨j, rfl⟩ : ∃ j, k = a + 1 + j := ⟨k - (a + 1), by omega⟩
        rw [if_pos h2, if_pos (by omega), show a + 1 + j - (a + 1) = j by omega, show a + 1 + j - a = j + 1 by omega]; rfl
      · rw [if_neg h2, if_neg (by omega)]

/-- A byte outside the bytes written keeps its value. -/
theorem mget_writeBytes_out (m : List Host.Cell) (a : Nat) (bs : List Byte) (k : Nat) (h : k < a ∨ a + bs.length ≤ k) :
    mget 0 (writeBytes m a bs) k = mget 0 m k := by
  rw [mget_writeBytes, if_neg (by omega)]

theorem mwf_writeBytes {m : List Host.Cell} (a : Nat) (bs : List Byte) (h : mwf 0 m = true) :
    mwf 0 (writeBytes m a bs) = true := by
  induction bs generalizing m a with
  | nil => exact h
  | cons b bs ih => exact ih (a + 1) (mwf_mset a b h)

@[simp] theorem length_leBytes (n v : Nat) : (leBytes n v).length = n := by
  induction n generalizing v with
  | zero => rfl
  | succ n ih => simp [leBytes, ih]

/-- The number that its own bytes name. -/
theorem leNat_leBytes (n v : Nat) : leNat (leBytes n v) = v % 256 ^ n := by
  induction n generalizing v with
  | zero => simp [leBytes, leNat, Nat.mod_one]
  | succ n ih =>
    rw [leBytes, leNat, ih, BitVec.toNat_ofNat, show (2 : Nat) ^ 8 = 256 from rfl, Nat.pow_succ', Nat.mod_mul]

theorem nth_eq_getElem (d : α) (l : List α) (i : Nat) (h : i < l.length) : nth d l i = l[i] := by
  induction l generalizing i with
  | nil => simp at h
  | cons x l ih => cases i with
    | zero => rfl
    | succ i => simpa [nth] using ih i (by simpa using h)

/-- Bytes read back where they were written. -/
theorem readBytes_writeBytes (m : List Host.Cell) (a : Nat) (bs : List Byte) :
    readBytes (writeBytes m a bs) a bs.length = bs := by
  apply List.ext_getElem
  · simp [readBytes]
  · intro i h1 h2
    simp only [readBytes, List.getElem_map, List.getElem_range]
    rw [mget_writeBytes, if_pos (by omega), Nat.add_sub_cancel_left, nth_eq_getElem 0 bs i h2]

end Sys2Proof.Machine
end

