-- ==== Sys2Proof/Laws/Slot.lean ====
section
/-! SUPPORT. Laws of cores, slots and banks: reading a register after a write, what completion and control transfer leave of a
slot, and how an instruction ends. -/
namespace Sys2Proof.Machine

/-! ### Cores and slots -/

@[simp] theorem core_setCore (s : State) (u : Nat) (c : Core) : (s.setCore u c).core u = c := mget_mset_same _ _ _ _

theorem core_setCore_ne (s : State) {u v : Nat} (c : Core) (h : v ≠ u) : (s.setCore u c).core v = s.core v := mget_mset_ne _ _ _ h

@[simp] theorem slotOf_setSlot (s : State) (u i : Nat) (x : Slot) : (s.setSlot u i x).slotOf u i = x := by
  simp [State.slotOf, State.setSlot, State.updCore]

theorem slotOf_setSlot_ne (s : State) {u v i j : Nat} (x : Slot) (h : v ≠ u ∨ j ≠ i) :
    (s.setSlot u i x).slotOf v j = s.slotOf v j := by
  unfold State.slotOf State.setSlot State.updCore
  by_cases hv : v = u
  · subst hv; rw [core_setCore]; exact mget_mset_ne _ _ _ (by simpa using h)
  · rw [core_setCore_ne _ _ hv]

@[simp] theorem setCore_setCore (s : State) (u : Nat) (c c' : Core) : (s.setCore u c).setCore u c' = s.setCore u c' := by
  simp [State.setCore]

@[simp] theorem setSlot_setSlot (s : State) (u i : Nat) (x y : Slot) : (s.setSlot u i x).setSlot u i y = s.setSlot u i y := by
  simp [State.setSlot, State.updCore]

@[simp] theorem me_setSlot (s : State) (x : Slot) : (s.setSlot s.cur s.slot x).me = x := slotOf_setSlot s _ _ x

@[simp] theorem me_updMe (s : State) (f : Slot → Slot) : (s.updMe f).me = f s.me := slotOf_setSlot s _ _ _

theorem updMe_eq (s : State) (f : Slot → Slot) : s.updMe f = s.setSlot s.cur s.slot (f s.me) := rfl

@[simp] theorem updMe_updMe (s : State) (f g : Slot → Slot) : (s.updMe f).updMe g = s.updMe (fun x => g (f x)) := by
  rw [updMe_eq (s.updMe f), me_updMe, updMe_eq s f, updMe_eq]
  exact setSlot_setSlot s _ _ _ _

/-- What one slot's update leaves: the machine with that slot replaced. -/
theorem updMe_only (s : State) (f : Slot → Slot) : s.updMe f = s.setSlot s.cur s.slot (s.updMe f).me := by rw [me_updMe]; rfl

/-! ### Banks -/

@[simp] theorem active_updActive (x : Slot) (f : Bank → Bank) : (x.updActive f).active = f x.active := by
  unfold Slot.active Slot.updActive; cases x.bank <;> simp

@[simp] theorem other_updActive (x : Slot) (f : Bank → Bank) : (x.updActive f).other = x.other := by
  unfold Slot.other Slot.updActive; cases x.bank <;> simp

@[simp] theorem active_updOther (x : Slot) (f : Bank → Bank) : (x.updOther f).active = x.active := by
  unfold Slot.active Slot.updOther; cases x.bank <;> simp

@[simp] theorem other_updOther (x : Slot) (f : Bank → Bank) : (x.updOther f).other = f x.other := by
  unfold Slot.other Slot.updOther; cases x.bank <;> simp

@[simp] theorem bank_updActive (x : Slot) (f : Bank → Bank) : (x.updActive f).bank = x.bank := by
  unfold Slot.updActive; cases x.bank <;> simp

@[simp] theorem updActive_updActive (x : Slot) (f g : Bank → Bank) :
    (x.updActive f).updActive g = x.updActive (fun b => g (f b)) := by
  unfold Slot.updActive; cases x.bank <;> simp

@[simp] theorem bk_updBk (s : State) (f : Bank → Bank) : (s.updBk f).bk = f s.bk := by
  unfold State.bk State.updBk; rw [me_updMe, active_updActive]

theorem readG_writeG (b : Bank) (d r : GReg) (v : W64) :
    (b.writeG d v).readG r = if r = d ∧ d ≠ 0 then v else b.readG r := by
  unfold Bank.writeG Bank.readG
  by_cases hd : d = 0
  · rw [if_pos hd, if_neg (fun h : r = d ∧ d ≠ 0 => h.2 hd)]
  · rw [if_neg hd]
    by_cases h : r = d
    · subst h
      rw [if_neg hd, if_pos (And.intro rfl hd)]
      exact mget_mset_same _ _ _ _
    · have h1 : r.toNat ≠ d.toNat := fun h2 => h (BitVec.eq_of_toNat_eq h2)
      rw [if_neg (fun h2 : r = d ∧ d ≠ 0 => h h2.1)]
      by_cases hr : r = 0
      · rw [if_pos hr, if_pos hr]
      · rw [if_neg hr, if_neg hr]; exact mget_mset_ne _ _ _ h1

theorem writeG_bank (b : Bank) (d : GReg) (v : W64) : b.writeG d v = { b with g := (b.writeG d v).g } := by
  unfold Bank.writeG; split <;> rfl

@[simp] theorem writeG_pc (b : Bank) (d : GReg) (v : W64) : (b.writeG d v).pc = b.pc := by unfold Bank.writeG; split <;> rfl
@[simp] theorem writeG_fps (b : Bank) (d : GReg) (v : W64) : (b.writeG d v).fps = b.fps := by unfold Bank.writeG; split <;> rfl
@[simp] theorem writeG_k (b : Bank) (d : GReg) (v : W64) : (b.writeG d v).k = b.k := by unfold Bank.writeG; split <;> rfl
@[simp] theorem writeG_h (b : Bank) (d : GReg) (v : W64) : (b.writeG d v).h = b.h := by unfold Bank.writeG; split <;> rfl
@[simp] theorem writeG_estat (b : Bank) (d : GReg) (v : W64) : (b.writeG d v).estat = b.estat := by unfold Bank.writeG; split <;> rfl

theorem getLsbD_setBit8 (v : BitVec 8) (i j : Nat) (x : Bool) (hi : i < 8) (hj : j < 8) :
    (setBit8 v i x).getLsbD j = if j = i then x else v.getLsbD j := by
  unfold setBit8
  cases x <;> simp only [Bool.false_eq_true, if_false, if_true, BitVec.getLsbD_and, BitVec.getLsbD_or, BitVec.getLsbD_not,
    BitVec.getLsbD_shiftLeft, hj, decide_true, Bool.true_and]
  · by_cases h : j = i
    · subst h; simp
    · by_cases h2 : j < i
      · simp [h, h2]
      · have h3 : 1 ≤ j - i := by omega
        simp [h, h2, BitVec.getLsbD_one, show ¬ j - i = 0 by omega]
  · by_cases h : j = i
    · subst h; simp
    · by_cases h2 : j < i
      · simp [h, h2]
      · simp [h, h2, BitVec.getLsbD_one, show ¬ j - i = 0 by omega]

/-! ### How an instruction ends -/

@[simp] theorem finish_ok (s t : State) (n : Nat) : finish s (.ok t n) = .next (t.retire n) := rfl
@[simp] theorem finish_jump (s t : State) (a : BitVec 16) : finish s (.jump t a) = .next (t.moveTo a) := rfl
@[simp] theorem finish_trap (s : State) (c : Trap) : finish s (.trap c) = .next (s.trap c) := rfl
@[simp] theorem finish_trapIn (s t : State) (c : Trap) : finish s (.trapIn t c) = .next (t.trap c) := rfl
@[simp] theorem finish_stay (s t : State) : finish s (.stay t) = .next t := rfl
@[simp] theorem finish_same (s t : State) : finish s (.same t) = .next t := rfl

theorem onBoth_of (s : State) (d : Done) (h : s.pc ≠ 0xFFFC) : onBoth s d = finish s d := by
  unfold onBoth State.atEnd; rw [if_neg h]

theorem onStrand_of (s : State) (d : Done) (h : s.pc ≠ 0xFFFC) (hl : isLookup s.cur = false) : onStrand s d = finish s d := by
  unfold onStrand State.atEnd; rw [hl, if_neg h]; rfl

theorem onLookup_of (s : State) (d : Done) (h : s.pc ≠ 0xFFFC) (hl : isLookup s.cur = true) : onLookup s d = finish s d := by
  unfold onLookup State.atEnd; rw [hl, if_neg h]; rfl

theorem transferStrand_of (s : State) (d : Done) (hl : isLookup s.cur = false) : transferStrand s d = finish s d := by
  unfold transferStrand; simp [hl]

/-- A finished instruction is a next state but for the one fault of the model. -/
theorem finish_not_refused (s : State) (d : Done) : NotRefused (finish s d) := by
  intro r h; cases d <;> cases h

@[simp] theorem me_retire (s : State) (n : Nat) : (s.retire n).me =
    { s.me.updActive (fun b => { b with pc := b.pc + 4 }) with
      fetch := s.me.fetch.tail, readyAt := s.cycle + n, drained := false, clearedLine := none, latched := none, wait := .none, st := .run } :=
  me_updMe s _

@[simp] theorem me_moveTo (s : State) (a : BitVec 16) : (s.moveTo a).me =
    { s.me.updActive (fun b => { b with pc := a }) with
      fetch := [], readyAt := s.cycle + 5, drained := false, clearedLine := none, latched := none, wait := .none, st := .run } :=
  me_updMe s _

@[simp] theorem bk_retire (s : State) (n : Nat) : (s.retire n).bk = { s.bk with pc := s.bk.pc + 4 } := by
  unfold State.bk; rw [me_retire]; exact active_updActive _ _

@[simp] theorem bk_moveTo (s : State) (a : BitVec 16) : (s.moveTo a).bk = { s.bk with pc := a } := by
  unfold State.bk; rw [me_moveTo]; exact active_updActive _ _

/-- A release that has nothing to wait for is the instruction's own effect. -/
theorem releasing_of (s : State) (sc : Scope) (k : State → Done) (hd : sc = .domain → s.me.linkDrop = none)
    (hc : s.me.drained = true ∨ s.clean = true ∨ wideScope (scopeOn s.cur sc) = false) : s.releasing sc k = k s := by
  have h1 : (if sc = .domain then s.me.linkDrop else none) = none := by
    split
    · next h => exact hd h
    · rfl
  unfold State.releasing
  rw [h1]
  rcases hc with hc | hc | hc <;> simp [hc]

/-! ### Memory -/

theorem byteAt_put (s : State) (a : Nat) (bs : List Byte) (k : Nat) :
    (s.put a bs).byteAt k = if a ≤ k ∧ k < a + bs.length then nth 0 bs (k - a) else s.byteAt k := mget_writeBytes _ _ _ _

theorem byteAt_put_out (s : State) (a : Nat) (bs : List Byte) (k : Nat) (h : k < a ∨ a + bs.length ≤ k) :
    (s.put a bs).byteAt k = s.byteAt k := mget_writeBytes_out _ _ _ _ h

/-- A number written is the number read (R7). -/
theorem numAt_put (s : State) (a n v : Nat) : (s.put a (leBytes n v)).numAt a n = v % 256 ^ n := by
  have h := readBytes_writeBytes s.mem a (leBytes n v)
  rw [length_leBytes] at h
  unfold State.numAt State.bytesAt
  exact (congrArg leNat h).trans (leNat_leBytes n v)

theorem wf_put {s : State} (a : Nat) (bs : List Byte) (h : Memory.wf s.mem) : Memory.wf (s.put a bs).mem := mwf_writeBytes a bs h

theorem wf_zero {s : State} (a n : Nat) (h : Memory.wf s.mem) : Memory.wf (s.zero a n).mem := mwf_mcut a n h

theorem byteAt_zero (s : State) (a n k : Nat) : (s.zero a n).byteAt k = if k < a ∨ a + n ≤ k then s.byteAt k else 0 :=
  mget_mcut _ _ _ _ _

end Sys2Proof.Machine
end

