-- ==== Sys2Proof/Laws/Completion.lean ====
section
/-! SUPPORT. The forms of Safety.lean in which an instruction completes, shown once for the shared operations that end it. -/
namespace Sys2Proof.Machine

theorem updMe_congr (s : State) {f g : Slot → Slot} (h : f s.me = g s.me) : s.updMe f = s.updMe g := by
  rw [updMe_eq, updMe_eq, h]

theorem retire_updBk (u : State) (f : Bank → Bank) (lat : Nat) : (u.updBk f).retire lat =
    u.updMe (fun x => { (x.updActive f).updActive (fun b => { b with pc := b.pc + 4 }) with
      fetch := (x.updActive f).fetch.tail, readyAt := u.cycle + lat, drained := false, clearedLine := none, latched := none, wait := .none, st := .run }) := by
  unfold State.retire State.updBk
  rw [updMe_updMe]
  rfl

@[simp] theorem fetch_updActive (x : Slot) (f : Bank → Bank) : (x.updActive f).fetch = x.fetch := by
  unfold Slot.updActive; split <;> rfl

theorem slot_ext_active (x : Slot) {f g : Bank → Bank} (h : f x.active = g x.active) : x.updActive f = x.updActive g := by
  unfold Slot.updActive Slot.active at *
  split <;> simp_all

/-- The running slot after a bank change `f` and completion. -/
theorem me_retire_updBk (u : State) (f : Bank → Bank) (lat : Nat) : ((u.updBk f).retire lat).me = u.slotAfter f lat := by
  rw [retire_updBk, me_updMe]; simp [State.slotAfter]

theorem only_retire_updBk (u : State) (f : Bank → Bank) (lat : Nat) :
    (u.updBk f).retire lat = u.setSlot u.cur u.slot ((u.updBk f).retire lat).me := by
  rw [retire_updBk]; exact updMe_only _ _

theorem slotAfter_congr (u : State) {f g : Bank → Bank} (lat : Nat) (h : f u.bk = g u.bk) : u.slotAfter f lat = u.slotAfter g lat := by
  have h1 : (u.me.updActive fun b => { f b with pc := (f b).pc + 4 }) = u.me.updActive fun b => { g b with pc := (g b).pc + 4 } :=
    slot_ext_active _ (by simp only [State.bk] at h; simp only [h])
  simp only [State.slotAfter, h1]

theorem retires_of (u : State) (d : GReg) (v : W64) (fl : W32) (lat : Nat) (f : Bank → Bank)
    (hf : f u.bk = { u.bk.writeG d v with fps := u.bk.fps ||| fl }) : Retires u d v fl lat ((u.updBk f).retire lat) := by
  have hbk : ((u.updBk f).retire lat).bk = { f u.bk with pc := (f u.bk).pc + 4 } := by rw [bk_retire, bk_updBk]
  have hr : ∀ r, ((u.updBk f).retire lat).readG r = (u.bk.writeG d v).readG r := by
    intro r
    unfold State.readG
    rw [hbk, hf]
    rfl
  refine ⟨only_retire_updBk u f lat, fun _ => rfl, ?_, ?_, ?_⟩
  · rw [me_retire_updBk]
    apply slotAfter_congr
    rw [hbk, hf, writeG_bank]
  · rw [hr, readG_writeG]
    by_cases h : d = 0
    · rw [if_neg (fun h2 => h2.2 h), if_pos h, h]; rfl
    · rw [if_pos ⟨rfl, h⟩, if_neg h]
  · intro r h
    rw [hr, readG_writeG, if_neg (fun h2 => h h2.1)]
    rfl

/-- A value for gd. -/
theorem retires_gives (u : State) (d : GReg) (v : W64) (lat : Nat) : Retires u d v 0 lat ((u.writeG d v).retire lat) :=
  retires_of u d v 0 lat _ (by rw [show u.bk.fps ||| (0 : W32) = (u.bk.writeG d v).fps by simp])

/-- A value for gd and flags. -/
theorem retires_flags (u : State) (d : GReg) (v : W64) (fl : W32) (lat : Nat) :
    Retires u d v fl lat (((u.writeG d v).orFlags fl).retire lat) := by
  have h : (u.writeG d v).orFlags fl = u.updBk (fun b => { b.writeG d v with fps := b.fps ||| fl }) := by
    unfold State.orFlags State.writeG State.updBk
    rw [updMe_updMe]
    apply updMe_congr
    simp
  rw [h]
  exact retires_of u d v fl lat _ rfl

/-- No register. -/
theorem retires_none (u : State) (lat : Nat) : Retires u 0 0 0 lat (u.retire lat) := by
  have h2 : u.retire lat = (u.updBk id).retire lat := by
    rw [retire_updBk]
    unfold State.retire
    apply updMe_congr
    simp [Slot.updActive]
  rw [h2]
  exact retires_of u 0 0 0 lat id (by simp [Bank.writeG])

theorem gives_of {i : Instr} {s u : State} {d : GReg} {v : W64} {lat : Nat}
    (h : exec i s = .next ((u.writeG d v).retire lat)) : Gives i s u d v 0 lat := ⟨_, h, retires_gives u d v lat⟩

theorem givesWaiting_of {i : Instr} {s u : State} {d : GReg} {v : W64} {lat : Nat}
    (h : exec i s = .next ((u.writeG d v).retireWait lat)) : GivesWaiting i s u d v lat := by
  refine ⟨_, retires_gives u d v lat, h.trans ?_⟩
  unfold State.retireWait
  rw [updMe_eq]

theorem givesFlags_of {i : Instr} {s u : State} {d : GReg} {v : W64} {fl : W32} {lat : Nat}
    (h : exec i s = .next (((u.writeG d v).orFlags fl).retire lat)) : Gives i s u d v fl lat := ⟨_, h, retires_flags u d v fl lat⟩

theorem completes_of {i : Instr} {s u : State} {lat : Nat} (h : exec i s = .next (u.retire lat)) : Completes i s u lat :=
  ⟨_, h, retires_none u lat⟩

theorem setsK_of {i : Instr} {s : State} {k : KReg} {v : Bool} {fl : W32} {lat : Nat}
    (h : exec i s = .next (((s.writeK k v).orFlags fl).retire lat)) : SetsK i s k v fl lat := by
  have h1 : (s.writeK k v).orFlags fl = s.updBk (fun b => { b with k := setBit8 b.k k.toNat v, fps := b.fps ||| fl }) := by
    unfold State.orFlags State.writeK State.updBk
    rw [updMe_updMe]
    apply updMe_congr
    simp
  rw [h1] at h
  refine ⟨_, h, only_retire_updBk _ _ _, fun _ => rfl, ?_, ?_, ?_⟩
  · rw [me_retire_updBk]; apply slotAfter_congr; simp
  · simp only [State.readK, bk_retire, bk_updBk]
    rw [getLsbD_setBit8 _ _ _ _ k.isLt k.isLt, if_pos rfl]
  · intro j hj
    simp only [State.readK, bk_retire, bk_updBk]
    rw [getLsbD_setBit8 _ _ _ _ k.isLt j.isLt, if_neg (fun h2 => hj (BitVec.eq_of_toNat_eq h2))]

theorem setsK_plain {i : Instr} {s : State} {k : KReg} {v : Bool} {lat : Nat}
    (h : exec i s = .next ((s.writeK k v).retire lat)) : SetsK i s k v 0 lat := by
  apply setsK_of
  rw [h]
  congr 1
  unfold State.orFlags State.writeK State.updBk
  rw [updMe_updMe]
  congr 1
  apply updMe_congr
  simp

theorem jumpsTo_of {i : Instr} {s u : State} {pc : BitVec 16} (h : exec i s = .next (u.moveTo pc)) : JumpsTo i s u pc :=
  ⟨_, h, updMe_only _ _, fun _ => rfl, me_moveTo _ _⟩

theorem trapsTo_of {i : Instr} {s u : State} {c : Trap} (hin : u.bk.inTrap = false) (h : exec i s = .next (u.trap c)) :
    TrapsTo i s u c.code c.eval c.reg c.wr := by
  have h1 : u.trap c = u.updMe (fun x => { x.updActive (fun b =>
      { b with ecause := c.ecause, eval := c.eval, epc := u.pc.zeroExtend 32, estat := b.enterStat, pc := b.evec.truncate 16 }) with
    fetch := [], readyAt := u.cycle + 2, drained := false, clearedLine := none, latched := none, wait := .none, st := .run }) := by
    unfold State.trap State.trapEntry
    rw [hin]
    rfl
  rw [h1] at h
  refine ⟨_, h, updMe_only _ _, fun _ => rfl, ?_⟩
  rw [me_updMe]
  have h2 : (u.me.updActive fun b => { b with
      ecause := c.ecause, eval := c.eval, epc := u.pc.zeroExtend 32, estat := b.enterStat, pc := b.evec.truncate 16 }) =
      u.me.updActive fun b => { b with
        ecause := w32 (c.code + c.reg % 32 * 256 + b2n c.wr * 0x2000), eval := c.eval, epc := b.pc.zeroExtend 32,
        estat := if b.estat.getLsbD 0 then 7 else 5, pc := b.evec.truncate 16 } := slot_ext_active _ rfl
  simp only [h2]

end Sys2Proof.Machine
end

