-- ==== Sys2Proof/Laws/Engine.lean ====
section
/-! SUPPORT. What the operations of the engines on memory leave of the rest of the machine: writes at a home and through held
translations, completion records and successors of tasks. -/
namespace Sys2Proof.Machine

/-! ### Reading after an update -/

@[simp] theorem cluster_setCluster (s : State) (cl : Nat) (c : Cluster) : (s.setCluster cl c).cluster cl = c := mget_mset_same _ _ _ _

@[simp] theorem buf_setBuf (s : State) (cl b : Nat) (x : Buffer) : (s.setBuf cl b x).buf cl b = x := by
  unfold State.buf State.setBuf State.updCluster; rw [cluster_setCluster]; exact mget_mset_same _ _ _ _

@[simp] theorem chan_setChan (s : State) (cl ch : Nat) (x : Chan) : (s.setChan cl ch x).chan cl ch = x := by
  unfold State.chan State.setChan State.updCluster; rw [cluster_setCluster]; exact mget_mset_same _ _ _ _

@[simp] theorem pressAt_setPress (s : State) (p : Nat) (x : Press) : (s.setPress p x).pressAt p = x := mget_mset_same _ _ _ _

theorem pressAt_setPress_ne (s : State) {p q : Nat} (x : Press) (h : q ≠ p) : (s.setPress p x).pressAt q = s.pressAt q :=
  mget_mset_ne _ _ _ h

@[simp] theorem ctx_setCtx (s : State) (u c : Nat) (x : Ctx) : (s.setCtx u c x).ctx u c = x := by
  unfold State.ctx State.setCtx State.updCore; rw [core_setCore]; exact mget_mset_same _ _ _ _

@[simp] theorem queue_setQueue (s : State) (q : Nat) (x : Queue) : (s.setQueue q x).queue q = x := mget_mset_same _ _ _ _

/-- A table whose every value takes `f`, which leaves the value of unlisted keys as it is. -/
theorem mget_map {α : Type} (d : α) (f : α → α) (hf : f d = d) (m : Map α) (k : Nat) :
    mget d (m.map (fun e => (e.1, f e.2))) k = f (mget d m k) := by
  induction m with
  | nil => exact hf.symm
  | cons e m ih => simp only [List.map_cons, mget]; split <;> [rfl; exact ih]

/-! ### Commands to presses, tile registers -/

@[simp] theorem answered_ok (f : State → State) (t : State) (lat : Nat) : (Done.ok t lat).answered f = .ok (f t) lat := rfl
@[simp] theorem answered_trap (f : State → State) (x : Trap) : (Done.trap x).answered f = .trap x := rfl
@[simp] theorem answered_trapIn (f : State → State) (t : State) (x : Trap) : (Done.trapIn t x).answered f = .trapIn t x := rfl
@[simp] theorem answered_stay (f : State → State) (t : State) : (Done.stay t).answered f = .stay t := rfl

/-- A tile register that a QREL or QPUSH gives up keeps what it holds until the next beat. -/
theorem pr_clearTile (s : State) (t y : Nat) :
    (s.clearTile t y).pressAt s.press = { s.pressAt s.press with pend := (s.pressAt s.press).pend ++ [(t + 1, .gone y)] } :=
  mget_mset_same _ _ _ _

/-! ### Writes -/

/-- `t` differs from `s` in memory, granules in error, replicas, the recency of pool lines, clocks and what the management
controller has been told only. -/
structure MemOnly (s t : State) : Prop where
  eq : t = { s with mem := t.mem, poison := t.poison, replicas := t.replicas, pool := t.pool, ticket := t.ticket
                    clocks := t.clocks, mgmt := t.mgmt }

theorem MemOnly.refl (s : State) : MemOnly s s := ⟨rfl⟩

theorem MemOnly.trans {s t u : State} (h : MemOnly s t) (g : MemOnly t u) : MemOnly s u := ⟨by rw [g.eq, h.eq]⟩

theorem memOnly_put (s : State) (a : Nat) (bs : List Byte) : MemOnly s (s.put a bs) := ⟨rfl⟩

theorem memOnly_zero (s : State) (a n : Nat) : MemOnly s (s.zero a n) := ⟨rfl⟩

theorem memOnly_touchPool (s : State) (a : Nat) (d : Bool) : MemOnly s (s.touchPool a d) := by
  unfold State.touchPool; split <;> exact ⟨rfl⟩

theorem memOnly_homePut (s : State) (a : Nat) (bs : List Byte) : MemOnly s (s.homePut a bs) := by
  unfold State.homePut
  exact (memOnly_put s a bs).trans (memOnly_touchPool _ _ _)

theorem MemOnly.foldl {α : Type} (f : State → α → State) (hf : ∀ s a, MemOnly s (f s a)) (l : List α) (s : State) :
    MemOnly s (l.foldl f s) := by
  induction l generalizing s with
  | nil => exact .refl _
  | cons a l ih => exact (hf s a).trans (ih _)

theorem memOnly_exchange (s : State) (u v : Nat) : MemOnly s (s.exchange u v) := ⟨rfl⟩

theorem memOnly_withdraw (s : State) (ln : Nat) : MemOnly s (s.withdraw ln) := by
  unfold State.withdraw
  exact MemOnly.trans (t := { s with replicas := mset 0 s.replicas ln 0 }) ⟨rfl⟩
    (MemOnly.foldl _ (fun _ _ => memOnly_exchange _ _ _) _ _)

theorem memOnly_unitLost (s : State) (e : ErrUnit) (l : List Nat) : MemOnly s (s.unitLost e l) := by
  cases e <;> exact ⟨rfl⟩

theorem memOnly_memError (s : State) (k : Nat) : MemOnly s (s.memError k) := by
  unfold State.memError
  split
  · exact ⟨rfl⟩
  · exact ⟨rfl⟩

/-- What reads report changes the management controller's record only. -/
theorem memOnly_report (s : State) (ks : List Nat) : MemOnly s (s.report ks) := MemOnly.foldl _ memOnly_memError _ _

theorem memOnly_readReport (s : State) (a n : Nat) : MemOnly s (s.readReport a n) := memOnly_report _ _

theorem memOnly_walked (s : State) (va : Nat) : MemOnly s (s.walked va) := memOnly_report _ _

theorem memOnly_enginePut (s : State) (a : Nat) (bs : List Byte) : MemOnly s (s.enginePut a bs) := by
  unfold State.enginePut
  exact (memOnly_withdraw _ _).trans (memOnly_homePut _ _ _)

theorem memOnly_piecesWrite {s t : State} {ps : List PageTr} {es : List (Nat × Nat)} {bs : List Byte}
    (h : s.piecesWrite ps es bs = .ok t) : MemOnly s t := by
  induction es generalizing s bs with
  | nil => cases h; exact .refl _
  | cons e es ih =>
    unfold State.piecesWrite at h
    split at h
    · cases h
    · split at h
      · cases h
      · exact (memOnly_enginePut _ _ _).trans (ih h)

theorem memOnly_pagesWrite {s t : State} {ps : List PageTr} {va : Nat} {bs : List Byte} (h : s.pagesWrite ps va bs = .ok t) :
    MemOnly s t := memOnly_piecesWrite h

theorem memOnly_walkedPages (s : State) (n a e : Nat) : MemOnly s (s.walkedPages n a e) := by
  induction n generalizing s a with
  | zero => exact .refl _
  | succ n ih =>
    unfold State.walkedPages
    split
    · exact .refl _
    · split
      · exact memOnly_walked _ _
      · exact (memOnly_walked _ _).trans (ih _ _)

theorem memOnly_walkedRanges (s : State) (rs : List (Nat × Nat)) : MemOnly s (s.walkedRanges rs) :=
  MemOnly.foldl _ (fun _ _ => memOnly_walkedPages _ _ _ _) _ _

theorem memOnly_virtWrite {s t : State} {va : Nat} {bs : List Byte} (h : s.virtWrite va bs = some t) : MemOnly s t := by
  unfold State.virtWrite at h
  split at h
  · split at h
    · next h2 => cases h; exact (memOnly_walkedRanges _ _).trans (memOnly_pagesWrite h2)
    · cases h
  · cases h

theorem memOnly_writeCpl (s : State) (r : WorkRec) (a b c d : Nat) : MemOnly s (s.writeCpl r a b c d) := by
  unfold State.writeCpl
  split
  · exact .refl _
  · dsimp only; split
    · next h => exact memOnly_virtWrite h
    · exact .refl _

/-- `t` differs from `s` in what a write changes and in the parked and ready tasks only. -/
structure ParkOnly (s t : State) : Prop where
  eq : t = { s with mem := t.mem, poison := t.poison, replicas := t.replicas, pool := t.pool, ticket := t.ticket
                    clocks := t.clocks, mgmt := t.mgmt
                    dist := { s.dist with parked := t.dist.parked, ready := t.dist.ready } }

theorem ParkOnly.refl (s : State) : ParkOnly s s := ⟨rfl⟩

theorem ParkOnly.trans {s t u : State} (h : ParkOnly s t) (g : ParkOnly t u) : ParkOnly s u := ⟨by rw [g.eq, h.eq]⟩

theorem MemOnly.park {s t : State} (h : MemOnly s t) : ParkOnly s t := ⟨by rw [h.eq]⟩

theorem parkOnly_makeReady (s : State) (n : Nat) (d : Bool) : ParkOnly s (s.makeReady n d) := by
  unfold State.makeReady; split <;> exact ⟨rfl⟩

theorem parkOnly_decCell {s t : State} {key n : Nat} (h : s.decCell key = some (n, t)) : ParkOnly s t := by
  unfold State.decCell at h
  dsimp only at h
  split at h
  · cases h
  · split at h
    · cases h; exact (memOnly_put s _ _).park.trans (parkOnly_makeReady _ _ _)
    · cases h; exact (memOnly_put s _ _).park

theorem parkOnly_decSucc (s : State) (ref : Nat) (d : Bool) : ParkOnly s (s.decSucc ref d) := by
  unfold State.decSucc
  split
  · dsimp only
    have h0 : ParkOnly s (s.readReport (refKey ref) 8) := (memOnly_readReport _ _ _).park
    generalize s.readReport (refKey ref) 8 = r at h0 ⊢
    split
    · exact h0
    · have h1 : ParkOnly s (if (d || nb (s.numAt (refKey ref) 8) 33) = true then r
          else r.putNum (refKey ref) 8 (s.numAt (refKey ref) 8 + 2 ^ 33)) := by
        split
        · exact h0
        · exact h0.trans (memOnly_put r _ _).park
      split
      · next h => exact h1.trans (parkOnly_decCell h)
      · exact h1
  · exact .refl _

/-- A decided task: its completion record and its successors. -/
theorem parkOnly_decideTask (s : State) (r : WorkRec) (a b c d : Nat) : ParkOnly s (s.decideTask r a b c d) :=
  ((memOnly_writeCpl s r a b c d).park.trans (parkOnly_decSucc _ _ _)).trans (parkOnly_decSucc _ _ _)

theorem ParkOnly.queue {s t : State} (h : ParkOnly s t) (q : Nat) : t.queue q = s.queue q := by rw [h.eq]; rfl

theorem ParkOnly.cores {s t : State} (h : ParkOnly s t) : t.cores = s.cores := by rw [h.eq]

theorem find_mins {α : Type} (m : Map α) (n : Nat) (v : α) : (mins (merase m n) n v).find? (fun e => e.1 == n) = some (n, v) := by
  have h : ∀ m : Map α, (∀ e ∈ m, e.1 ≠ n) → (mins m n v).find? (fun e => e.1 == n) = some (n, v) := by
    intro m
    induction m with
    | nil => intro _; simp [mins]
    | cons e m ih =>
      intro hm
      unfold mins
      split
      · simp
      · have he := hm e (.head _)
        rw [List.find?_cons_of_neg (by simpa using he)]
        exact ih (fun e' h' => hm e' (.tail _ h'))
  exact h _ not_mem_merase

end Sys2Proof.Machine
end

