-- ==== Sys2Proof/Laws/Memory.lean ====
section
/-! SUPPORT. Global memory through handles: what the checks of a handle answer, what LD and ST then do, and which lines an access of
8 bytes touches. -/
namespace Sys2Proof.Machine

theorem any_merase_ne {α : Type} (m : Map α) {k j : Nat} (h : j ≠ k) : (merase m k).any (fun e => e.1 == j) = m.any (fun e => e.1 == j) := by
  induction m with
  | nil => rfl
  | cons e m ih =>
    by_cases he : e.1 = k
    · simp [merase, he, ih, Ne.symm h]
    · simp [merase, he, ih]
theorem any_mins_ne {α : Type} (m : Map α) {k j : Nat} (v : α) (h : j ≠ k) : (mins m k v).any (fun e => e.1 == j) = m.any (fun e => e.1 == j) := by
  induction m with
  | nil => simp [mins, Ne.symm h]
  | cons e m ih =>
    simp only [mins]; split <;> simp [ih, Ne.symm h]
theorem any_mset_ne {α : Type} [DecidableEq α] (d : α) (m : Map α) {k j : Nat} (v : α) (h : j ≠ k) :
    (mset d m k v).any (fun e => e.1 == j) = m.any (fun e => e.1 == j) := by
  unfold mset; split
  · exact any_merase_ne m h
  · rw [any_mins_ne _ _ h, any_merase_ne m h]

theorem leBytes_length (n v : Nat) : (leBytes n v).length = n := by
  induction n generalizing v <;> simp_all [leBytes]

/-- An access inside a live handle passes every check of R230. -/
theorem handleCheck_ok {hd : Handle} {h : HReg} {o : Int} {n : Nat} {wr : Bool} (hv : hd.v = true) (ho : o % n = 0) (h0 : 0 ≤ o)
    (hs : o + n ≤ hd.span.toNat) (hw : wr = true → hd.w = true) : handleCheck hd h o n wr = .ok (hd.pbase.toNat + o.toNat) := by
  unfold handleCheck
  rw [if_neg (by simpa using ho), hv]
  simp only [Bool.not_true, Bool.false_eq_true, if_false]
  rw [if_neg (by push Not; exact ⟨h0, hs⟩)]
  by_cases hwr : wr = true
  · simp [hwr, hw hwr]
  · simp [hwr]

/-- LD once its checks have passed. -/
theorem exec_ld {s : State} {d a : GReg} {h : HReg} {i : BitVec 12} (k : Done)
    (hc : handleCheck (s.readH h) h (offsetOf (s.readG a) i) 8 false = .ok ((s.readH h).pbase.toNat + (offsetOf (s.readG a) i).toNat))
    (hm : s.mapped ((s.readH h).pbase.toNat + (offsetOf (s.readG a) i).toNat) = true)
    (hk : (if (s.readH h).pool || isLookup s.cur then
        s.ldHome d h ((s.readH h).pbase.toNat + (offsetOf (s.readG a) i).toNat) ((s.readH h).vbase + intW (offsetOf (s.readG a) i)) (s.readH h).rd
      else s.ldL1 d h ((s.readH h).pbase.toNat + (offsetOf (s.readG a) i).toNat) ((s.readH h).vbase + intW (offsetOf (s.readG a) i))) = k) :
    exec (.ld d a h i) s = onBoth s k := by
  show onBoth s (match handleCheck (s.readH h) h (offsetOf (s.readG a) i) 8 false with
    | .error t => .trap t
    | .ok pa => _) = _
  rw [hc]
  simp only [hm, Bool.not_true, Bool.false_eq_true, if_false]
  rw [hk]

/-- ST once its checks have passed. -/
theorem exec_st {s : State} {x a : GReg} {h : HReg} {i : BitVec 12} (k : Done)
    (hc : handleCheck (s.useH h) h (offsetOf (s.readG a) i) 8 true = .ok ((s.useH h).pbase.toNat + (offsetOf (s.readG a) i).toNat))
    (hm : s.mapped ((s.useH h).pbase.toNat + (offsetOf (s.readG a) i).toNat) = true)
    (hk : (if (s.useH h).rd && ((s.useH h).pool || isLookup s.cur) then
        s.homeStore ((s.useH h).pbase.toNat + (offsetOf (s.readG a) i).toNat) (s.readG x).toNat
      else if (s.useH h).pool || isLookup s.cur then
        .ok (s.postLines ((s.useH h).pbase.toNat + (offsetOf (s.readG a) i).toNat) (leBytes 8 (s.readG x).toNat)) 4
      else s.stL1 ((s.useH h).pbase.toNat + (offsetOf (s.readG a) i).toNat) (s.readG x).toNat (s.useH h).rd) = k) :
    exec (.st x a h i) s = onBoth s (k.holding (.handle (s.useH h))) := by
  show onBoth s (match handleCheck (s.useH h) h (offsetOf (s.readG a) i) 8 true with
    | .error t => .trap t
    | .ok pa => _) = _
  rw [hc]
  simp only [hm, Bool.not_true, Bool.false_eq_true, if_false]
  rw [hk]

theorem crosses_le {a : Nat} (h : a % 64 ≤ 56) : crosses a 8 = false := by simp [crosses]; omega
theorem crosses_gt {a : Nat} (h : 56 < a % 64) : crosses a 8 = true := by simp [crosses]; omega
theorem next_div (a : Nat) : nextLine a / 64 = a / 64 + 1 := by simp [nextLine]
theorem next_mod (a : Nat) : nextLine a % 64 = 0 := by simp [nextLine]

end Sys2Proof.Machine
end

