-- ==== Sys2Proof/Tests/Slice0.lean ====
section
/-! SUPPORT. Tests of the definitions. Expected results come from the manual: its encodings, its worked examples, its tables, or a
calculation by hand from its rules. The theorems named witness show that the hypotheses of a statement of
Sys2Proof/Certificates/Slice0/Obligations.lean can be met, at the ends of their ranges. -/
namespace Sys2Proof.Tests
open Sys2Proof.Machine

-- One theorem after the other: elaborated side by side they would need a thread each.
set_option Elab.async false

/-! ### Words written out from the encodings of the manual and from its worked examples -/

theorem test_decode_integer : decode 0x04A63800 = .ok (.add 5 6 7) ∧ decode 0x2042FFFF = .ok (.addi 2 2 0xFFFF)
    ∧ decode 0x20000000 = .ok (.addi 0 0 0) ∧ decode 0x6D6A01D0 = .ok (.extu 11 10 7 16)
    ∧ decode 0x0842180B = .ok (.crcW 2 2 3) := ⟨rfl, rfl, rfl, rfl, rfl⟩

theorem test_decode_halfword_moves : decode 0x58A09ABC = .ok (.movz 5 0 0x9ABC) ∧ decode 0x5CA25678 = .ok (.movk 5 2 0x5678) :=
  ⟨rfl, rfl⟩

theorem test_decode_conditions : decode 0x0C442804 = .ok (.cltu 2 4 5) ∧ decode 0x4C020001 = .ok (.cgei 0 2 1)
    ∧ decode 0x70A000FF = .ok (.pkk 5 0xFF) ∧ decode 0x740500F0 = .ok (.upk 5 0xF0) := ⟨rfl, rfl, rfl, rfl⟩

theorem test_decode_float : decode 0x11095000 = .ok (.fadd 8 9 10 .s) ∧ decode 0x11095020 = .ok (.fadd 8 9 10 .b)
    ∧ decode 0x10480052 = .ok (.ftow 2 8 true .s) := ⟨rfl, rfl, rfl⟩

theorem test_decode_control : decode 0x8864FFFD = .ok (.blt 3 4 0xFFFD) ∧ decode 0x98600002 = .ok (.bkt 3 2)
    ∧ decode 0xA4060040 = .ok (.call 6 0x40) ∧ decode 0xA8000100 = .ok .ret ∧ decode 0xB2000008 = .ok (.spl 16 1) :=
  ⟨rfl, rfl, rfl, rfl, rfl⟩

theorem test_decode_memory : decode 0xC0A62010 = .ok (.ld 5 6 2 0x10) ∧ decode 0xC4902300 = .ok (.st 4 16 2 0x300)
    ∧ decode 0xCC64A008 = .ok (.ll 3 4 .w true 8) ∧ decode 0xD4073080 = .ok (.xlat 0 7 3 true)
    ∧ decode 0xD4172201 = .ok (.pref 23 2 1) := ⟨rfl, rfl, rfl, rfl, rfl⟩

theorem test_decode_atomics : decode 0xC8A62472 = .ok (.amoadd 5 6 2 .acqRel .device .d false)
    ∧ decode 0xC9340447 = .ok (.amoadd 9 20 0 .release .core .d true)
    ∧ decode 0xC9340027 = .ok (.lda 9 20 0 .acquire .core .d true) := ⟨rfl, rfl, rfl⟩

theorem test_decode_system : decode 0xD8000014 = .ok (.fence .acqRel .device) ∧ decode 0xD8000800 = .ok .ifence
    ∧ decode 0xD8093804 = .ok (.mtsr 9 4) ∧ decode 0xDA801005 = .ok (.rdid 20 5) := ⟨rfl, rfl, rfl, rfl⟩

theorem test_decode_threads : decode 0xDC482040 = .ok (.spawn 2 8 4) ∧ decode 0xDE510000 = .ok (.start 18 17)
    ∧ decode 0xDC432240 = .ok (.pmerge 2 3 4) ∧ decode 0xDD400201 = .ok (.mrecv 10 1) ∧ decode 0xDC1981C3 = .ok (.msend 25 16 3)
    ∧ decode 0xDD400101 = .ok (.waitq 10 1) := ⟨rfl, rfl, rfl, rfl, rfl, rfl⟩

theorem test_decode_tiles : decode 0xF9484800 = .ok (.topen 10 8 9) ∧ decode 0xF80B6003 = .ok (.twrD 11 12)
    ∧ decode 0xF84A0009 = .ok (.seal 2 10) ∧ decode 0xF840000A = .ok (.tcnt 2 false 0) := ⟨rfl, rfl, rfl, rfl⟩

theorem test_decode_copy : decode 0xE0040041 = .ok (.cpySetr 4 1 1) ∧ decode 0xE0450055 = .ok (.cpyWblk 2 5 false 1)
    ∧ decode 0xE0600056 = .ok (.cpyRblk 3 1) ∧ decode 0xE0C0004F = .ok (.cpyGetr 6 1 7) ∧ decode 0xE1200017 = .ok (.cpyKvg 9 0)
    ∧ decode 0xE3A80058 = .ok (.cpyPgin 29 8 1) := ⟨rfl, rfl, rfl, rfl, rfl, rfl⟩

theorem test_decode_press_commands : decode 0xE4430000 = .ok (.muGetr 2 3 0) ∧ decode 0xE4074001 = .ok (.muSetr 7 8 0)
    ∧ decode 0xE4040045 = .ok (.muStart 4 1) ∧ decode 0xE4053008 = .ok (.muSave 5 6 0) ∧ decode 0xE40E8003 = .ok (.muSets 14 16 0) :=
  ⟨rfl, rfl, rfl, rfl, rfl⟩

theorem test_decode_lookup : decode 0xE8453000 = .ok (.lkPost 2 5 6) ∧ decode 0xE8450044 = .ok (.lkStat 2 5 1)
    ∧ decode 0xE8453010 = .ok (.lkTdesc 2 5 6) ∧ decode 0xE8080012 = .ok (.lkBopen 8) ∧ decode 0xE8600054 = .ok (.lkBdrop 3)
    ∧ decode 0xE8453057 = .ok (.lkFib 2 5 6 1) ∧ decode 0xE8450118 = .ok (.lkSpout 2 5 4) := ⟨rfl, rfl, rfl, rfl, rfl, rfl, rfl⟩

theorem test_decode_splice : decode 0xEC450000 = .ok (.kvcfg 2 5) ∧ decode 0xED230041 = .ok (.kvmatch 9 3 true)
    ∧ decode 0xED200003 = .ok (.kvappend 9 0) ∧ decode 0xED230045 = .ok (.kvunref 9 3 true) ∧ decode 0xEC45000A = .ok (.kvstat 2 5) :=
  ⟨rfl, rfl, rfl, rfl, rfl⟩

theorem test_decode_fabric : decode 0xF0050041 = .ok (.fabSetr 5 1 1) ∧ decode 0xF0400050 = .ok (.fabPut 2 1)
    ∧ decode 0xF0400113 = .ok (.fabTput 2 true 0) ∧ decode 0xF0470014 = .ok (.fabSeal 2 7 0) ∧ decode 0xF0460015 = .ok (.fabAred 2 6 0)
    ∧ decode 0xF0460164 = .ok (.fabAmoadd 2 6 .d 1) ∧ decode 0xF0463823 = .ok (.fabAmocas 2 6 7 .w 0) :=
  ⟨rfl, rfl, rfl, rfl, rfl, rfl, rfl⟩

theorem test_decode_distributor : decode 0xF4453000 = .ok (.dqQcfg 2 5 6) ∧ decode 0xF5484801 = .ok (.dqPush 10 8 9)
    ∧ decode 0xF4450042 = .ok (.dqQget 2 5 1) ∧ decode 0xF4053003 = .ok (.dqPrio 5 6) ∧ decode 0xF4053004 = .ok (.dqQen 5 6) :=
  ⟨rfl, rfl, rfl, rfl, rfl⟩

/-- R188: a major or a code that names nothing, a bit that must be 0, a number past its limit. -/
theorem test_decode_unassigned : decode 0 = .error .major ∧ decode 0xFFFFFFFF = .error .major ∧ decode 0x04A63801 ≠ .ok (.add 5 6 7) :=
  ⟨rfl, rfl, nofun⟩

theorem test_decode_press_matrix : decodeSlot .m [0x01402000, 0x07FFC000] = some (.mma ⟨0, 1, 0, 0, 0, 31, 255, 0, false⟩, [])
    ∧ decodeSlot .a [0x0204CA40] = some (.aread 0 3 5 1 false, []) ∧ decodeSlot .a [0x020ECA60] = some (.aread 0 3 5 1 true, [])
    ∧ decodeSlot .a [0x0640101E] = some (.astore 0 0 2 0 15 false, []) ∧ decodeSlot .a [0x07905140] = some (.astoreW 0 1 2 5, [])
    ∧ decodeSlot .a [0x01024400] = some (.azero 0 1 1, []) ∧ decodeSlot .c [0x0140E07C] = some (.bload 0 3 1 0 31 0, []) := by
  exact ⟨rfl, rfl, rfl, rfl, rfl, rfl, rfl⟩

theorem test_decode_press_scalar : decodeSlot .s [0x03080003] = some (.smovi 0 1 3, []) ∧ decodeSlot .b [0x03000000] = some (.stop 0, [])
    ∧ decodeSlot .b [0x11000032] = some (.br 1 0x32, []) ∧ decodeSlot .q [0x01200000] = some (.qpop 0 1 0, [])
    ∧ decodeSlot .q [0x02000000] = some (.qrel 0 0, []) ∧ decodeSlot .c [0x02020000] = some (.bswapp 0, []) := by
  exact ⟨rfl, rfl, rfl, rfl, rfl, rfl⟩

/-- The encoder writes the same words. -/
theorem test_encode : encode? (.add 5 6 7) = some 0x04A63800 ∧ encode? (.seal 2 10) = some 0xF84A0009
    ∧ encode? (.fabTput 2 true 0) = some 0xF0400113 ∧ encode? (.mtsr 9 4) = some 0xD8093804 := by decide

/-! ### The decoder and the first step, as the host asks for them -/

theorem test_decodeTableWord : decodeTableWord 32 0x04A63800 = some (.add 5 6 7) ∧ decodeTableWord 32 0xFFFFFFFF = none := ⟨rfl, rfl⟩

/-! ### Ill-formed terms, each refused by its check -/

theorem test_wf_fields : Instr.wf (.extu 1 2 63 1) = false ∧ Instr.wf (.exts 1 2 0 63) = true ∧ Instr.wf (.ins 1 2 32 32) = false := by decide
theorem test_wf_frames : Instr.wf (.call 65 0) = false ∧ Instr.wf (.callr 1 65) = false ∧ Instr.wf (.call 64 0) = true := by decide
theorem test_wf_local : Instr.wf (.ll 1 2 .d true 0) = false ∧ Instr.wf (.lm 1 2 .d true 0) = false := by decide
theorem test_wf_orders : Instr.wf (.lda 1 2 0 .release .core .d false) = false ∧ Instr.wf (.sta 1 2 0 .acquire .core .d false) = false := by decide
theorem test_wf_mesh_handle : Instr.wf (.amoadd 1 2 3 .relaxed .core .d true) = false ∧ Instr.wf (.amofadd 1 2 3 .relaxed .core true) = false
    ∧ Instr.wf (.lda 1 2 3 .relaxed .core .d true) = false ∧ Instr.wf (.sta 1 2 3 .relaxed .core .d true) = false := by decide
theorem test_wf_threads : Instr.wf (.spawn 1 2 29) = false ∧ Instr.wf (.msend 1 2 63) = false := by decide
theorem test_wf_system : Instr.wf (.mfsr 1 13) = false ∧ Instr.wf (.mtsr 1 13) = false ∧ Instr.wf (.xget 1 .pc 1) = false
    ∧ Instr.wf (.xput 1 .k 1) = false := by decide
theorem test_wf_tstat : Instr.wf (.tstat 1 2 4) = false ∧ Instr.wf (.tstat 1 2 26) = false ∧ Instr.wf (.tstat 1 2 22) = true := by decide
theorem test_wf_engines : Instr.wf (.cpySetr 1 0 7) = false ∧ Instr.wf (.cpyTile 1 2 0 false false 0) = false
    ∧ Instr.wf (.lkGetc 1 5) = false ∧ Instr.wf (.fabSetr 1 0 5) = false ∧ Instr.wf (.fabGetr 1 0 6) = false := by decide
theorem test_wf_matrix : Instr.wf (.mma ⟨0, 1, 0, 0, 40, 31, 255, 0, false⟩) = false ∧ Instr.wf (.mma ⟨0, 1, 0, 0, 0, 31, 0, 1, false⟩) = false
    ∧ Instr.wf (.mmak ⟨0, 1, 0, 0, 0, 31, 255, 1, false⟩) = false ∧ Instr.wf (.abias 0 0 31 0 1) = false
    ∧ Instr.wf (.astore 0 0 0 31 1 false) = false ∧ Instr.wf (.bload 0 0 0 31 15 0) = false ∧ Instr.wf (.bload 0 0 0 0 0 3) = false := by
  decide

/-! ### One step -/

/-- The outcome is a next state that satisfies `p`. -/
def gives (o : Host.Outcome State Fault Refusal) (p : State → Bool) : Bool :=
  match o with
  | .next t => p t
  | _ => false

/-- A state after reset whose running slot (slot 0 of core 0, or of lookup core 0) has the given g registers and privilege. -/
def start (u : Nat) (priv : Bool) (g : Map W64) : State :=
  { State.reset with cur := u }.updMe (fun x => { x with st := .run, b0 := { x.b0 with g := g, estat := if priv then 1 else 0 } })

/-- The first instruction after reset: ADDI g2, g2, -1 (R193) gives all ones, and the PC moves on. -/
theorem test_step_addi : gives (step (State.reset.withFetchWord 32 0x2042FFFF))
    (fun t => t.readG 2 == BitVec.allOnes 64 && t.pc == 4 && t.cur == 0) = true := by decide +kernel

/-- An unassigned word raises trap 0x02 with the word in EVAL (R188). -/
theorem test_step_illegal : gives (step (State.reset.withFetchWord 32 0xFFFFFFFF))
    (fun t => t.bk.ecause == 2 && t.bk.eval == 0xFFFFFFFF && t.bk.estat == 5) = true := by decide +kernel

/-- An instruction of the lookup group runs on lookup core 0 (R381): LK.WCLR. -/
theorem test_step_lookup : gives (step (State.reset.withFetchWord 32 0xE8000016)) (fun t => t.cur == 1536 && t.pc == 4) = true := by
  decide +kernel

/-! ### Integer, immediates, conditions (R191 to R201) -/

theorem test_add_wraps : gives (exec (.add 3 1 2) (start 0 false [(1, BitVec.allOnes 64), (2, 2)])) (fun t => t.readG 3 == 1) = true := by
  decide +kernel
theorem test_g0_takes_nothing : gives (exec (.addi 0 0 5) (start 0 false [])) (fun t => t.readG 0 == 0 && t.pc == 4) = true := by
  decide +kernel
/-- The high half of (-1) x (-1) is 0, and of the unsigned product 2^64 - 2. -/
theorem test_mulh : gives (exec (.mulh 3 1 1) (start 0 false [(1, BitVec.allOnes 64)])) (fun t => t.readG 3 == 0)
    && gives (exec (.mulhu 3 1 1) (start 0 false [(1, BitVec.allOnes 64)])) (fun t => t.readG 3 == 0xFFFFFFFFFFFFFFFE) = true := by
  decide +kernel
theorem test_sraw_takes_low_half : gives (exec (.sraw 3 1 2) (start 0 false [(1, 0x180000000), (2, 33)]))
    (fun t => t.readG 3 == 0xFFFFFFFFC0000000) = true := by decide +kernel
theorem test_movk_keeps_the_rest : gives (exec (.movk 5 2 0x5678) (start 0 false [(5, 0x1111222233334444)]))
    (fun t => t.readG 5 == 0x1111567833334444) = true := by decide +kernel
theorem test_exts_of_one_bit : gives (exec (.exts 3 1 0 4) (start 0 false [(1, 0x10)])) (fun t => t.readG 3 == BitVec.allOnes 64) = true := by
  decide +kernel
theorem test_clz_of_zero : gives (exec (.clz 3 1) (start 0 false [])) (fun t => t.readG 3 == 64) = true := by decide +kernel
/-- CRC-32C of the ASCII digits 1 to 9 is 0xE3069283 before the final inversion of an all-ones start (R197). -/
theorem test_crc_check_value : gives (exec (.crcD 3 1 2) (start 0 false [(1, 0xFFFFFFFF), (2, 0x3837363534333231)]))
    (fun t => gives (exec (.crcB 3 3 4) (t.writeG 4 0x39)) (fun u => u.readG 3 == 0x1CF96D7C)) = true := by decide +kernel
theorem test_clt_is_signed : gives (exec (.clt 3 1 2) (start 0 false [(1, BitVec.allOnes 64), (2, 0)])) (fun t => t.readK 3)
    && gives (exec (.cltu 3 1 2) (start 0 false [(1, BitVec.allOnes 64), (2, 0)])) (fun t => !t.readK 3) = true := by decide +kernel
theorem test_upk_by_mask : gives (exec (.upk 1 0xF0) (start 0 false [(1, 0xFF)])) (fun t => t.bk.k == 0xF0) = true := by decide +kernel

/-! ### Scalar floating point (R202 to R213) -/

/-- 1 + 2^-24 is a tie and goes to the even 1.0, inexact (R90, R92). -/
theorem test_fadd_tie_to_even : gives (exec (.fadd 3 1 2 .s) (start 0 false [(1, 0x3F800000), (2, 0x33800000)]))
    (fun t => t.readG 3 == 0x3F800000 && t.bk.fps == 1) = true := by decide +kernel
/-- 1 / 0 raises DZ and gives infinity. -/
theorem test_frcp_of_zero : gives (exec (.frcp 3 1 .s) (start 0 false [])) (fun t => t.readG 3 == 0x7F800000 && t.bk.fps == 8) = true := by
  decide +kernel
theorem test_fneg_of_nan : gives (exec (.fneg 3 1 .s) (start 0 false [(1, 0xFF800001)])) (fun t => t.readG 3 == 0x7FC00000) = true := by
  decide +kernel
theorem test_ftow_saturates : gives (exec (.ftow 3 1 true .s) (start 0 false [(1, 0x4F000000)]))
    (fun t => t.readG 3 == 0x7FFFFFFF && t.bk.fps == 16) = true := by decide +kernel

/-! ### Control (R214 to R221, R163 to R173) -/

theorem test_branch_back : gives (exec (.beq 0 0 0xFFFF) (start 0 false [])) (fun t => t.pc == 0xFFFC && t.me.readyAt == 5) = true := by
  decide +kernel
theorem test_call_links : gives (exec (.call 6 0x40) (start 0 false [])) (fun t => t.readG 1 == 4 && t.me.fb == 48 && t.pc == 0x100) = true := by
  decide +kernel
theorem test_spill_limit : gives (exec (.call 64 0) ((start 0 false []).updMe (fun x => { x with fb := 8 })))
    (fun t => t.bk.ecause == 4 && t.bk.eval == 520 && t.me.fb == 8) = true := by decide +kernel
theorem test_fil_after_spl : gives (exec (.spl 5 1) (start 0 false [(5, 77)])) (fun t => gives (exec (.fil 6 1) t) (fun u => u.readG 6 == 77))
    = true := by decide +kernel
theorem test_trap_and_eret : gives (exec (.trap 9) (start 0 true [])) (fun t => t.bk.epc == 4 && t.bk.eval == 9
    && gives (exec .eret t) (fun u => u.pc == 4 && u.bk.estat == 3)) = true := by decide +kernel
theorem test_mtsr_at_user_traps : gives (exec (.mtsr 1 4) (start 0 false [])) (fun t => t.bk.ecause == 3) = true := by decide +kernel
theorem test_mtsr_evec_alignment : gives (exec (.mtsr 1 4) (start 0 true [(1, 0x12347)])) (fun t => t.bk.evec == 0x2344) = true := by
  decide +kernel

/-! ### Memory (R227 to R240) -/

/-- A handle of HBM4 bytes 0 to 63, writable, in h1. -/
def withHandle (s : State) : State := s.writeH 1 { v := true, w := true, vbase := 0x4000, span := 64 }

/-- The line that a store took is filled around its bytes (R231), and a load then finds them. -/
theorem test_st_then_ld : gives (exec (.st 5 0 1 8) (withHandle (start 0 false [(5, 0x1122334455667788)])))
    (fun t => gives (exec (.l1Fill 0 0) t) (fun x => gives (exec (.ld 6 0 1 8) x) (fun u => u.readG 6 == 0x1122334455667788))) = true := by
  decide +kernel
theorem test_ld_bounds : gives (exec (.ld 6 0 1 64) (withHandle (start 0 false []))) (fun t => t.bk.ecause == 0x108 && t.bk.eval == 64) = true := by
  decide +kernel
theorem test_st_alignment : gives (exec (.st 6 0 1 4) (withHandle (start 0 false []))) (fun t => t.bk.ecause == 0x2106 && t.bk.eval == 0x4004)
    = true := by decide +kernel
theorem test_sl_then_ll_signed : gives (exec (.sl 5 0 .h 0x102) (start 0 false [(5, 0x18000)]))
    (fun t => gives (exec (.ll 6 0 .h true 0x102) t) (fun u => u.readG 6 == 0xFFFFFFFFFFFF8000)) = true := by decide +kernel
theorem test_amoadd_gives_the_old_value : gives (exec (.amoadd 5 0 1 .relaxed .core .w false) ((withHandle (start 0 false [(5, 3)])).put 0 [0xFF, 0xFF, 0xFF, 0xFF]))
    (fun t => t.readG 5 == 0xFFFFFFFF && t.numAt 0 4 == 2 && t.numAt 4 4 == 0) = true := by decide +kernel
theorem test_amomin_is_signed : gives (exec (.amomin 5 0 1 .relaxed .core .w false) ((withHandle (start 0 false [(5, 3)])).put 0 [0xFF, 0xFF, 0xFF, 0xFF]))
    (fun t => t.numAt 0 4 == 0xFFFFFFFF) = true := by decide +kernel

/-! ### Threads, tiles, engines -/

theorem test_start_takes_slot_one : gives (exec (.start 6 5) (start 0 false [(5, 0x103), (2, 7)]))
    (fun t => t.readG 6 == 1 && (t.slotOf 0 1).b0.pc == 0x100 && (t.slotOf 0 1).b0.readG 2 == 7) = true := by decide +kernel
theorem test_waitq_parks : gives (exec (.waitq 6 2) (start 0 false [])) (fun t => t.me.st == .wait && t.pc == 0) = true := by decide +kernel
/-- The shape word of R129: format 0, PLAIN, 4 rows of pitch 2, queue 1. -/
theorem test_topen_and_write : gives (exec (.topen 10 8 9) (start 0 false [(8, 0x2020400)]))
    (fun t => t.readG 10 == 0 && (t.buf 0 0).rows == 4 && (t.buf 0 0).pitch == 2 && (t.buf 0 0).queue == 1
      && gives (exec (.twrW 10 11) (t.writeG 11 5)) (fun u => (u.buf 0 0).vmask == 1 && u.numAt (padBase 0) 4 == 5)) = true := by
  decide +kernel
theorem test_seal_of_an_empty_tile : gives (exec (.topen 10 8 9) (start 0 false [(8, 0x2020400)]))
    (fun t => gives (exec (.seal 2 10) t) (fun u => u.readG 2 == 2 && (u.buf 0 0).gen == 1 && ((u.cluster 0).counted 0).ecnt == 0
      && ((u.cluster 0).counted 1).ecnt == 1)) = true := by
  decide +kernel
theorem test_cpy_command_queues : gives (exec (.cpyLin 3 1) (start 0 false [])) (fun t => t.bk.ecause == 0x11 || t.readG 3 == 1) = true := by
  decide +kernel
theorem test_press_start : gives (exec (.muStart 4 1) (start 0 false [(4, 0x40)])) (fun t => (t.pressAt 1).st == .run && (t.pressAt 1).pc == 0x40)
    = true := by decide +kernel
theorem test_dq_push_unconfigured : gives (exec (.dqPush 10 8 9) (start 0 false [(9, 1)])) (fun t => t.bk.ecause == 0x11) = true := by
  decide +kernel
theorem test_owncas_takes_the_device : gives (exec (.owncas .host (0x100000000)) State.reset) (fun t => t.mgmt.owner == 1 && t.mgmt.epoch == 1)
    = true := by decide +kernel

/-! ### Press instructions -/

/-- Press 0 runs, its guard c0 reads 1. -/
def pressRuns : State := State.reset.updPress 0 (fun x => { x with st := .run })

theorem test_smovi_visible_next_beat : gives (exec (.smovi 0 1 0x7FFFF) pressRuns)
    (fun t => t.pr.sreg 1 == 0 && t.pr.pend == [(1, .s 1 0xFFFFFFFF)]) = true := by decide +kernel
theorem test_loop_ends_at_zero : gives (exec (.loop 0 1 4) (pressRuns.updPress 0 (fun x => { x with s := [(1, 1)] })))
    (fun t => t.pr.pc == 0 && t.pr.pend == [(1, .s 1 0)]) = true := by decide +kernel
theorem test_qpop_arms : gives (exec (.qpop 0 1 2) pressRuns) (fun t => (t.pr.tileReg 1).arm && (t.pr.tileReg 1).armq == 2) = true := by
  decide +kernel

/-! ### Hypotheses that can be met: strand cores -/

theorem released_start (u : Nat) (p : Bool) (g : Map W64) (sc : Scope) : Released (start u p g) sc := by
  refine ⟨fun _ => ?_, .inr (.inl ?_)⟩
  · rw [start, me_updMe]; rfl
  · have h : (start u p g).cur = u := rfl
    unfold State.clean
    rw [h]
    unfold start State.updMe State.updSlot State.setSlot State.updCore
    rw [core_setCore]
    rfl

/-- A page table at 0x1000 that maps the first GiB of virtual addresses to the first GiB of HBM4, writable (R492). -/
def paged (s : State) : State :=
  (({ s with mgmt := { s.mgmt with ptroot := 0x1000 } }.putNum 0x1000 8 0x2003).putNum 0x2000 8 0x3003).putNum 0x3000 8 0xB

theorem witness_IntegerRegister : (start 0 false []).pc ≠ 0xFFFC := by decide +kernel
theorem witness_IntegerImmediate : (start 0 false []).pc ≠ 0xFFFC ∧ fieldFits 63 0 ∧ fieldFits 0 63 := by decide +kernel
theorem witness_BitsCrcHash : (start 0 false []).pc ≠ 0xFFFC := by decide +kernel
theorem witness_ConditionBits : (start 0 false []).pc ≠ 0xFFFC := by decide +kernel
/-- The cases of PMERGE: a NaN, two zeros, one zero, two values, and two 401 powers of two apart. -/
theorem witness_FloatArithmetic : let s := start 0 false [(1, 0x7F800001), (2, 0x3F800000), (3, 401 * 2 ^ 32 + 0x01000000)]
    let low := fun (r : GReg) => (s.readG r).toNat % 2 ^ 32
    let high := fun (r : GReg) => sfield 32 ((s.readG r).toNat / 2 ^ 32)
    let isNan := fun (v : Nat) => 0x7F800000 < v % 2 ^ 31
    s.pc ≠ 0xFFFC ∧ isNan (low 1) ∧ low 0 % 2 ^ 31 = 0 ∧ ¬ low 2 % 2 ^ 31 = 0 ∧ ¬ isNan (low 2)
    ∧ (s.bk.fps.toNat / 2 ^ 8 % 4 = 0 ∧ 0x01000000 ≤ low 3 % 2 ^ 31 ∧ low 3 % 2 ^ 31 < 0x7F800000 ∧ low 2 % 2 ^ 31 < 0x7F800000
      ∧ 400 < max (high 2) (high 3) - high 2) := by decide +kernel
theorem witness_FloatSigns : let s := start 0 false [(1, 0x7F800001), (2, 0x7F800000)]
    s.pc ≠ 0xFFFC ∧ ((s.readG 1).toNat / 2 ^ 23 % 256 = 255 ∧ (s.readG 1).toNat % 2 ^ 23 ≠ 0)
    ∧ ¬ ((s.readG 2).toNat / 2 ^ 23 % 256 = 255 ∧ (s.readG 2).toNat % 2 ^ 23 ≠ 0) := by decide +kernel
theorem witness_FloatClassAndCompare : let s := start 0 false [(1, 0x7F800001)]
    s.pc ≠ 0xFFFC ∧ ((s.fpArg .s 1).isNaN || (s.fpArg .s 2).isNaN) = true := by decide +kernel
theorem witness_Branches : let s := start 0 false [(1, 5), (2, BitVec.allOnes 64)]
    s.pc ≠ 0xFFFC ∧ s.readG 0 = s.readG 3 ∧ s.readG 0 ≠ s.readG 1 ∧ (s.readG 2).toInt < (s.readG 1).toInt
    ∧ (s.readG 1).toNat < (s.readG 2).toNat ∧ s.readK 0 = false := by decide +kernel
theorem witness_CallRule : let s := start 0 false []
    s.cur < 1536 ∧ s.pc ≠ 0xFFFC ∧ s.me.bank = false ∧ s.bk.inTrap = false ∧ s.me.fb.toNat + 8 * (64 : BitVec 7).toNat ≤ 512
    ∧ 512 < s.me.fb.toNat + 8 * (65 : BitVec 7).toNat := by decide +kernel
theorem witness_ReturnRule : let fb := fun (v : W64) => v.toNat / 2 ^ 32 % 1024
    let s := start 0 false [(1, 512 * 2 ^ 32)]
    s.cur < 1536 ∧ s.me.bank = false ∧ s.bk.inTrap = false ∧ fb (s.readG 1) ≤ 512 ∧ fb (s.readG 1) % 8 = 0
    ∧ 512 < fb (520 * 2 ^ 32) ∧ fb (4 * 2 ^ 32) % 8 ≠ 0 := by decide +kernel
theorem witness_SpillMoves : let s := start 0 false []
    s.cur < 1536 ∧ s.pc ≠ 0xFFFC ∧ s.me.bank = false ∧ s.bk.inTrap = false ∧ s.me.fb.toNat + 8 * (63 : BitVec 6).toNat + 8 ≤ 512
    ∧ 512 < (s.updMe (fun x => { x with fb := 8 })).me.fb.toNat + 8 * (63 : BitVec 6).toNat + 8 := by decide +kernel
theorem witness_StandbyBankLeafCode : let s := (start 0 false []).updMe (fun x => { x with bank := true })
    s.cur < 1536 ∧ s.pc ≠ 0xFFFC ∧ s.me.bank = true ∧ s.bk.inTrap = false := by decide +kernel
theorem witness_SystemRegisters : let s := start 0 true [(1, 64 * 8), (2, 65 * 8)]
    s.pc ≠ 0xFFFC ∧ s.super = true ∧ s.cur < 1536 ∧ (s.readG 1).toNat / 8 % 128 * 8 ≤ 512 ∧ 512 < (s.readG 2).toNat / 8 % 128 * 8
    ∧ ((start 1536 true []).super = true ∧ 1536 ≤ (start 1536 true []).cur) ∧ 12 < (13 : BitVec 4).toNat ∧ s.bk.inTrap = false := by
  decide +kernel
theorem witness_PrivilegeTraps : let s := start 0 false []
    s.cur < 1536 ∧ s.pc ≠ 0xFFFC ∧ s.super = false ∧ s.bk.inTrap = false ∧ (9 : BitVec 4).toNat ≤ 9 := by decide +kernel
theorem witness_TrapEntryAndReturn : let s := start 0 true []
    let e := s.updBk (fun b => { b with pc := 0xFFFC })
    s.bk.inTrap = false ∧ s.pc ≠ 0xFFFC ∧ e.bk.inTrap = false ∧ e.pc = 0xFFFC ∧ e.cur < 1536
    ∧ ((encode? (.addi 1 2 3)).map (fun v => lookupWord v.toNat) = some false ∧ (encode? (.call 8 0)).map (fun v => lookupWord v.toNat) = some false)
    ∧ s.super = true
    ∧ (s.updMe (fun x => { x with bank := true, b1 := { x.b1 with estat := 1 } })).super = true := by decide +kernel
theorem witness_DoubleTrap : let s := (start 0 false []).updBk (fun b => { b with estat := 4 })
    let t := (start 0 false []).updMe (fun x => { x with bank := true })
    s.bk.inTrap = true ∧ t.pc ≠ 0xFFFC ∧ t.me.bank = true ∧ canonical (t.readG 1) = true
    ∧ t.pageFor ((t.readG 1).toNat % 2 ^ 57) true t.super = none := by decide +kernel
/-- Each cause with IN = 1: spill memory at its end, an address outside local memory and one in error, handles that are
revoked, passed, read-only, a tile operand of each fault, a position and a shape word past the last. -/
theorem witness_DoubleTrap_causes : let s := (start 0 false [(1, 0xFFF8), (2, 2 ^ 54), (3, 2 ^ 48), (4, 2 ^ 24), (5, 0x20), (6, 7),
        (7, 2 ^ 56), (8, 1), (9, 96 * 2 ^ 17)]).updBk (fun b => { b with estat := 4 })
    let h := (s.writeH 1 { v := true, span := 8 }).updMe (fun x => { x with fb := 512 })
    let e := { s with poison := [(localBase 0 + 0xFFF8) / 8] }
    let o := s.setBuf 0 0 { state := .open_, rows := 1, pitch := 1 }
    let tag := fun (r : GReg) => tileRef ((s.readG r).truncate 32)
    s.bk.inTrap = true ∧ s.pc ≠ 0xFFFC ∧ (s.updBk (fun b => { b with pc := 0xFFFC })).pc = 0xFFFC ∧ s.super = false ∧ s.cur < 1536 ∧ s.me.bank = false
    ∧ 512 < h.me.fb.toNat + 8 * (0 : BitVec 6).toNat + 8 ∧ 0x10000 < (s.readG 1 + 1).toNat + MemSize.bytes .d
    ∧ (s.readG 8).toInt % 8 ≠ 0 ∧ (s.readH 0).v = false ∧ (h.readH 1).v = true ∧ ((h.readH 1).span.toNat : Int) < (s.readG 1).toInt + 8
    ∧ 0 + 8 ≤ (h.readH 1).span.toNat ∧ (h.readH 1).w = false
    ∧ (s.readG 1).toNat + MemSize.bytes .d ≤ 0x10000 ∧ (s.readG 1).toNat % MemSize.bytes .d = 0
    ∧ (e.landFor 0 (.localMem 0)).mem = e.mem ∧ (e.landFor 0 (.localMem 0)).bad (ownBase 0 + 0xFFF8) (MemSize.bytes .d) = true
    ∧ canonical (s.readG 7) = false ∧ 2 ^ 54 ≤ (s.readG 2).toNat ∧ 95 < (tag 9).cl ∧ (o.buf 0 0).gen ≠ (tag 8).gen
    ∧ (o.buf 0 0).gen = (tag 3).gen ∧ (s.buf 0 0).state ≠ .open_ ∧ (o.buf 0 0).state = .open_
    ∧ (o.buf 0 0).rows ≤ (s.readG 3).toNat / 2 ^ 48 % 2 ^ 6 ∧ 2 ^ 24 ≤ (s.readG 4).toNat ∧ 1 < (s.readG 5).toNat / 2 ^ 4 % 16
    ∧ 6 < (s.readG 6).toNat % 16 := by decide +kernel
theorem witness_IdentityTimeAndFences : let s := (start 0 false [(1, 63)]).writeH 2 { v := true, span := 64 }
    let d := { start 0 false [] with posted := [⟨0, 0, .localMem 0, 0, [1]⟩] }
    s.pc ≠ 0xFFFC ∧ (15 : BitVec 4) ≠ 3 ∧ s.cur < 1536 ∧ 1536 ≤ (start 1536 false []).cur ∧ 3 < (4 : BitVec 4).toNat
    ∧ ((s.readH 2).v = true ∧ (s.readH 2).pool = false ∧ 0 ≤ (s.readG 1).toInt + 64 * (0 : BitVec 8).toInt
        ∧ (s.readG 1).toInt + 64 * (0 : BitVec 8).toInt < (s.readH 2).span.toNat)
    ∧ ¬ ((s.readG 1).toInt + 64 * (1 : BitVec 8).toInt < (s.readH 2).span.toNat)
    ∧ FenceKind.rel ≠ .acq ∧ 2 ≤ Scope.cluster.code ∧ Scope.cluster ≠ .domain ∧ d.me.drained = false ∧ d.clean = false := by
  decide +kernel
theorem witness_IdentityTimeAndFences_released (sc : Scope) : Released (start 0 false []) sc := released_start _ _ _ _
theorem witness_TranslationAndParking : let s := paged (start 0 false [(1, 0x3FFFFFFF), (2, 2 ^ 56)])
    let t := start 0 false []
    s.pc ≠ 0xFFFC ∧ canonical (s.readG 1) = true ∧ (s.pageFor ((s.readG 1).toNat % 2 ^ 57) true s.super).isSome = true
    ∧ canonical (s.readG 2) = false ∧ s.bk.inTrap = false
    ∧ t.pc ≠ 0xFFFC ∧ t.me.bank = false ∧ canonical (t.readG 1) = true ∧ t.pageFor ((t.readG 1).toNat % 2 ^ 57) true t.super = none := by
  decide +kernel
/-- The last doubleword of the handle, once for a line that the L1 holds, once for a lookup slot. -/
theorem witness_GlobalAccess : let hd : Handle := { v := true, w := true, span := 64 }
    let s := ((start 0 false [(1, 56)]).writeH 2 hd).updCore 0 (fun c => { c with l1 := [(0, { valid := BitVec.allOnes 64 })] })
    let t := (start 1536 false [(1, 56)]).writeH 2 hd
    let l := mget {} (s.core s.cur).l1 0
    s.pc ≠ 0xFFFC ∧ (s.readH 2).v = true ∧ (s.readG 1).toInt % 8 = 0 ∧ (s.readG 1).toInt + 8 ≤ (s.readH 2).span.toNat
    ∧ s.mapped 56 = true ∧ ¬ ((s.readH 2).pool = true ∨ 1536 ≤ s.cur) ∧ l.filling = false
    ∧ l.valid &&& BitVec.ofNat 64 (255 * 2 ^ 56) = BitVec.ofNat 64 (255 * 2 ^ 56) ∧ (s.core s.cur).inError 56 = false
    ∧ (s.core s.cur).l1.any (fun e => e.1 == 0) = true ∧ l.ro = false
    ∧ 1536 ≤ t.cur ∧ t.mapped 56 = true ∧ (t.readH 2).w = true ∧ (t.readH 2).rd = false
    ∧ (t.readAtHome 56 8 (t.readH 2).rd).bad 56 8 = false := by decide +kernel
/-- A handle whose address is not aligned: the doubleword at offset 56 lies in two lines. -/
theorem witness_GlobalAccess_lines : let hd : Handle := { v := true, w := true, pbase := 4, span := 64 }
    let ln : Line := { valid := BitVec.allOnes 64, used := 1 }
    let s := ((start 0 false [(1, 56)]).writeH 2 hd).updCore 0 (fun c => { c with l1 := [(0, ln), (1, ln)] })
    let t := (start 1536 false [(1, 56)]).writeH 2 hd
    s.pc ≠ 0xFFFC ∧ (s.readG 1).toInt % 8 = 0 ∧ (s.readG 1).toInt + 8 ≤ (s.readH 2).span.toNat ∧ s.mapped 60 = true ∧ 56 < 60 % 64
    ∧ ¬ ((s.readH 2).pool = true ∨ 1536 ≤ s.cur) ∧ ln.filling = false ∧ mget {} (s.core s.cur).l1 0 = ln ∧ mget {} (s.core s.cur).l1 1 = ln
    ∧ ln.valid &&& BitVec.ofNat 64 ((2 ^ 4 - 1) * 2 ^ 60) = BitVec.ofNat 64 ((2 ^ 4 - 1) * 2 ^ 60)
    ∧ ln.valid &&& BitVec.ofNat 64 (2 ^ 4 - 1) = BitVec.ofNat 64 (2 ^ 4 - 1) ∧ (s.core s.cur).inError 60 = false
    ∧ (s.core s.cur).l1.any (fun e => e.1 == 0) = true ∧ (s.core s.cur).l1.any (fun e => e.1 == 1) = true ∧ ln.ro = false
    ∧ 1536 ≤ t.cur ∧ t.mapped 60 = true ∧ (t.readH 2).w = true ∧ (t.readH 2).rd = false
    ∧ (t.readAtHome 60 8 false).bad 60 8 = false := by decide +kernel
/-- The last doubleword that is mapped and the first that is not; a line that is not held; a line in error; a store that a
set of dirty lines keeps waiting; a store that its handle has waited with; a read-duplicated line held by a slice and
by none. -/
theorem witness_GlobalAccess_waits : let hd : Handle := { v := true, w := true, span := 64 }
    let far : Handle := { hd with pbase := BitVec.ofNat 64 (hbmEnd - 8) }
    let s := (start 0 false []).writeH 2 hd
    let full := s.updCore 0 (fun c => { c with l1 := (List.range 8).map (fun i => (1024 * (i + 1), { dirty := 1, valid := 1 })) })
    let bad := s.updCore 0 (fun c => { c with l1 := [(0, { valid := BitVec.allOnes 64, bad := 1 })] })
    let late := s.updMe (fun x => { x with latched := some (.handle hd) })
    let two := { s with replicas := [(0, 1)] }
    s.mapped (far.pbase.toNat + 0) = true ∧ s.mapped (far.pbase.toNat + 8) = false
    ∧ (s.core 0).holds 0 = false ∧ (bad.core 0).holds 0 = true ∧ (bad.core 0).inError 0 = true ∧ s.bk.inTrap = false
    ∧ makeWay (full.core 0).l1 0 = none ∧ (makeWay (s.core 0).l1 0).isSome = true ∧ late.me.latched = some (.handle hd)
    ∧ ({ s with poison := [0] }.readAtHome 0 8 false).bad 0 8 = true
    ∧ mget 0 two.replicas 0 ≠ 0 ∧ two.me.clearedLine ≠ some 0 ∧ mget 0 s.replicas 0 = 0 := by decide +kernel
theorem witness_GlobalAccessTraps : let hd : Handle := { v := true, span := 64 }
    let s := (start 0 false [(1, 63), (2, 56), (3, 64)]).writeH 2 hd
    s.pc ≠ 0xFFFC ∧ s.bk.inTrap = false ∧ (s.readG 1).toInt % 8 ≠ 0 ∧ (s.readG 2).toInt % 8 = 0 ∧ (s.readH 1).v = false
    ∧ (s.readH 2).v = true ∧ ((s.readH 2).span.toNat : Int) < (s.readG 3).toInt + 8 ∧ (s.readG 2).toInt + 8 ≤ (s.readH 2).span.toNat
    ∧ (s.readH 2).w = false := by decide +kernel
/-- The last bytes of local memory, one place further, and mesh addresses of local memory and of tile data. -/
theorem witness_LocalAccess : let s := start 0 false [(1, 0xFFF8), (2, 0x2000000000000), (3, 2 ^ 40 + 14 * 2 ^ 44)]
    let o := s.setBuf 0 0 { state := .open_, rows := 1, pitch := 1 }
    s.pc ≠ 0xFFFC ∧ (s.readG 1).toNat + 8 ≤ 0x10000 ∧ (s.readG 1).toNat % 8 = 0 ∧ s.bad (ownBase 0 + 0xFFF8) 8 = false
    ∧ 0x10000 < ((s.readG 1) + 1).toNat + 8 ∧ s.bk.inTrap = false ∧ s.cur < 1536
    ∧ (s.meshPlace (s.readG 2) 0 8 false).toOption.isSome = true ∧ (s.meshPlace (s.readG 2) 0 8 true).toOption.isSome = true
    ∧ ((s.meshPlace (s.readG 3) 0 8 true).toOption.map (fun e => e.1.tile)) = some true
    ∧ (o.buf 0 0).state = .open_ ∧ (s.buf 0 0).state ≠ .open_ := by decide +kernel
/-- A domain, in which this device is device 0 (R403). -/
def joined (s : State) : State := { s with mgmt := { s.mgmt with devnum := 0x100 } }
theorem resolve_other (s : State) (n : Nat) (hn : n = 1 ∨ n = 8) (h : s.member 1 = true) : s.resolve 0 (2 ^ 56) n = some ⟨1, 0, false, 0, 0⟩ := by
  rcases hn with rfl | rfl <;> simp [State.resolve, nb, nf, b2n, h]
theorem meshPlace_other (s : State) (wr : Bool) (h : s.member 1 = true) (hc : s.cur = 0) :
    s.meshPlace (2 ^ 56) 0 8 wr = .ok (⟨1, 0, false, 0, 0⟩, 2 ^ 56) := by
  have hf : formMesh (2 ^ 56) 0 = some (2 ^ 56) := by decide +kernel
  simp only [State.meshPlace, hf, hc, resolve_other s 8 (.inr rfl) h]
theorem joined_member (h : Config.domainMember 1 = true) (g : Map W64) : (joined (start 0 false g)).member 1 = true := by
  have hd : (joined (start 0 false g)).mgmt.devnum = 0x100 := rfl
  unfold State.member
  rw [h, hd]
  simp [nb]
/-- A local memory of device 1, a member of the domain; with a route to it and with none. -/
theorem witness_LocalAccess_remote (h : Config.domainMember 1 = true) (wr : Bool) : let s := joined (start 0 false [])
    let r := { s with fabric := { s.fabric with links := [(0, { state := 2 })] } }
    s.meshPlace (2 ^ 56) 0 8 wr = .ok (⟨1, 0, false, 0, 0⟩, 2 ^ 56) ∧ s.routeless 1 = true ∧ r.routeless 1 = false
    ∧ 1 ≠ s.devNum ∧ s.bk.inTrap = false :=
  ⟨meshPlace_other _ wr (joined_member h []) rfl, by decide +kernel⟩
theorem witness_LocalReadAfterWrite : let s := start 0 false [(1, 0xFFF8), (2, 7)]
    s.pc ≠ 0xFFFC ∧ (s.readG 1).toNat % 8 = 0 ∧ (s.readG 1).toNat + 8 ≤ 0x10000
    ∧ gives (exec (.sl 2 1 .d 0) s) (fun t => t.pc ≠ 0xFFFC && !(t.landFor t.cur (.localMem t.cur)).bad (ownBase t.cur + 0xFFF8) 8) = true := by
  decide +kernel
theorem witness_AtomicsAtHome : let s := (start 0 false [(1, 56)]).writeH 2 { v := true, w := true, span := 64 }
    let t := s.perLine 56 8 State.ownLineFirst
    s.pc ≠ 0xFFFC ∧ (s.readH 2).v = true ∧ 0 ≤ (s.readG 1).toInt ∧ s.mapped 56 = true ∧ s.replicas = []
    ∧ (s.readG 1).toInt % 8 = 0 ∧ (s.readG 1).toInt + 8 ≤ (s.readH 2).span.toNat ∧ (s.readH 2).w = true ∧ t.bad 56 8 = false := by
  decide +kernel
theorem witness_AtomicsByMesh : let s := start 0 false [(1, 0xFFF8)]
    s.pc ≠ 0xFFFC ∧ s.cur < 1536 ∧ ((s.meshPlace (s.readG 1) 0 8 true).toOption.map (fun e => (e.1.dev, e.1.tile, e.1.key)))
      = some (s.devNum, false, localBase 0 + 0xFFF8) ∧ (s.landFor 0 (.localMem 0)).bad (localBase 0 + 0xFFF8) 8 = false := by decide +kernel
/-- Slot 1 free; none free; a core with a task and a free slot; no task; EXIT of a helper, of slot 0, and of slot 0 with a helper busy. -/
theorem witness_Strands : let s := start 0 false [(1, 4)]
    let full := (List.range 16).foldl (fun t i => t.setSlot 0 i { st := .run }) s
    let bound := s.updCore 0 (fun c => { c with task := some 7 })
    s.pc ≠ 0xFFFC ∧ s.freeSlot s.cur = some 1 ∧ full.freeSlot full.cur = none ∧ s.cur < 1536
    ∧ ((s.resolve s.cur (s.readG 1) 4).map (fun p => (p.tile, p.dev, p.unit))) = some (false, s.devNum, 0)
    ∧ (bound.core 0).task = some 7 ∧ (bound.core 0).ended = false ∧ bound.dist.bound = [] ∧ bound.freeSlot 0 = some 1 ∧ (s.core 0).task = none
    ∧ ((bound.updCore 0 (fun c => { c with ended := true })).core 0).ended = true
    ∧ 1536 ≤ (start 1536 false []).cur ∧ (start 1536 false []).me.bank = false
    ∧ s.me.bank = false ∧ { s with slot := 3 }.slot ≠ 0 ∧ s.helpersFree s.cur = true ∧ full.helpersFree full.cur = false := by decide +kernel
theorem witness_QueuesAndMessages : let s := start 0 false []
    let q := s.updCore 0 (fun c => { c with eq := [(3, [⟨5, .core⟩])], inbox := [⟨6, 62, 0, .core⟩] })
    let f := s.updCore 0 (fun c => { c with eq := [(3, List.replicate 16 ⟨5, .core⟩)], inbox := List.replicate 15 ⟨6, 0, 0, .core⟩ })
    s.pc ≠ 0xFFFC ∧ mget [] (q.core 0).eq 3 = [⟨5, .core⟩] ∧ ((q.core 0).eqWaiters 3).isEmpty = true ∧ mget [] (s.core 0).eq 3 = []
    ∧ ((s.coreNamed (s.readG 1)).map (fun p => (p.dev, p.unit))) = some (s.devNum, 0) ∧ (mget [] (s.core 0).eq 3).length < 16
    ∧ 16 ≤ (mget [] (f.core 0).eq 3).length ∧ (f.core 0).inbox.length < 16
    ∧ 16 ≤ ((s.updCore 0 (fun c => { c with inbox := List.replicate 16 ⟨6, 0, 0, .core⟩ })).core 0).inbox.length
    ∧ (((s.updMe (fun x => { x with wait := .waitq 3 3 1 })).core 0).eqWaiters 3).isEmpty = false ∧ rowOf 0 = rowOf (clusterOf s.cur)
    ∧ (q.core 0).recvPlace 62 (q.ticket + 1) = some 0 ∧ (q.core 0).inbox[0]? = some ⟨6, 62, 0, .core⟩
    ∧ (s.core 0).recvPlace 62 (s.ticket + 1) = none := by decide +kernel
/-- A count of 0, of 2, and of 1 with the PARK bit. -/
theorem witness_TaskCells : let s := start 0 false [(1, 0x100)]
    let park := s.putNum (localBase 0 + 0x100) 8 (1 + 2 ^ 32)
    let two := s.putNum (localBase 0 + 0x100) 8 2
    s.pc ≠ 0xFFFC ∧ ((s.resolve s.cur (s.readG 1) 8).map (fun p => (p.tile, p.dev, p.key))) = some (false, s.devNum, localBase 0 + 0x100)
    ∧ s.bad (localBase 0 + 0x100) 8 = false ∧ s.numAt (localBase 0 + 0x100) 8 % 2 ^ 32 = 0
    ∧ two.numAt (localBase 0 + 0x100) 8 % 2 ^ 32 = 2 ∧ park.numAt (localBase 0 + 0x100) 8 % 2 ^ 32 = 1
    ∧ park.numAt (localBase 0 + 0x100) 8 / 2 ^ 32 % 2 = 1 := by decide +kernel

/-! ### Hypotheses that can be met: tiles, copy unit, press commands -/

/-- Buffer 0 of cluster 0 in the given state, one row of pitch 1, with the given mask. -/
def tile (s : State) (st : TileState) (m : BitVec 64) : State := s.setBuf 0 0 { state := st, rows := 1, pitch := 1, vmask := m }

/-- The largest shapes of both domains, and the codes just past the last. -/
theorem witness_TileOpen : let s := start 0 false [(1, 0xFFFF)]
    let full := s.setCluster 0 { bufs := (List.range 384).map (fun i => (i, { state := .open_ })) }
    s.cur < 1536 ∧ s.pc ≠ 0xFFFC ∧ s.bk.inTrap = false ∧ (s.readG 1).toNat < 2 ^ 16 ∧ s.freeBuf 0 = some 0 ∧ full.freeBuf 0 = none
    ∧ (let w := 6 + 1 * 16 + 32 * 2 ^ 8 + 8 * 2 ^ 16 + 3 * 2 ^ 25
       w % 16 ≤ 6 ∧ w / 2 ^ 4 % 16 ≤ 1 ∧ w < 2 ^ 27 ∧ w / 2 ^ 15 % 2 = 0 ∧ 1 ≤ w / 2 ^ 8 % 128 ∧ w / 2 ^ 8 % 128 ≤ 32
         ∧ w / 2 ^ 16 % 512 ≤ 256 ∧ w / 2 ^ 8 % 128 * (w / 2 ^ 16 % 512) ≤ 256)
    ∧ 1 < 0x20 / 2 ^ 4 % 16 ∧ 6 < 7 % 16 := by decide +kernel
theorem witness_TileWrites : let s := tile (start 0 false [(1, 62 * 2 ^ 32), (2, 1)]) .open_ 0
    let r := tileRef ((s.readG 1).truncate 32)
    let x := s.buf r.cl r.b
    s.cur < 1536 ∧ s.pc ≠ 0xFFFC ∧ r.dev = s.devNum ∧ r.cl ≤ 95 ∧ r.b ≤ 383 ∧ x.gen = r.gen ∧ x.state = .open_
    ∧ (s.readG 1).toNat < 2 ^ 54 ∧ (s.readG 1).toNat / 2 ^ 48 % 2 ^ 6 < x.rows ∧ (s.readG 1).toNat / 2 ^ 32 % 2 ^ 16 % 2 = 0
    ∧ (s.readG 1).toNat / 2 ^ 32 % 2 ^ 16 + 2 ≤ 64 * x.pitch ∧ (s.readG 3).toNat < 2 ^ 32
    ∧ (∀ j, j < 64 → (s.readG 2).getLsbD j = true → j < x.rows) := by decide +kernel
theorem witness_TileWrites_haar : let s := (start 0 false [(2, 31)]).setBuf 0 0 { state := .open_, haar := true, rows := 1, pitch := 1 }
    let x := s.buf 0 0
    x.state = .open_ ∧ x.haar = true ∧ (s.readG 2).toNat < 32 ∧ (s.readG 0).toNat % 32 = 0 ∧ (s.readG 0).toNat / 2 ^ 48 % 2 ^ 6 = 0 := by
  decide +kernel
theorem witness_TileControl : let s := tile (start 0 true []) .open_ 0
    let r := tileRef ((s.readG 1).truncate 32)
    s.cur < 1536 ∧ s.pc ≠ 0xFFFC ∧ (s.readG 1).toNat < 2 ^ 32 ∧ r.dev = s.devNum ∧ r.cl ≤ 95 ∧ r.b ≤ 383 ∧ (s.buf r.cl r.b).gen = r.gen
    ∧ (s.buf r.cl r.b).state = .open_ ∧ s.super = true := by decide +kernel
/-- Each state of the buffer; an empty tile; one that can be posted; one whose queue is full; a Haar tile with one RMAP value twice. -/
theorem witness_TileSeal : let s := start 0 false []
    let o := tile s .open_ 1
    let f := o.updPress 0 (fun p => { p with q := [(0, List.replicate 16 (0, false))] })
    let h := s.setBuf 0 0 { state := .open_, haar := true, rows := 2, pitch := 1, vmask := 3 }
    let r := tileRef ((s.readG 1).truncate 32)
    s.cur < 1536 ∧ s.pc ≠ 0xFFFC ∧ s.bk.inTrap = false ∧ (s.readG 1).toNat < 2 ^ 32 ∧ r.dev = s.devNum ∧ r.cl ≤ 95 ∧ r.b ≤ 383
    ∧ (s.buf 0 0).gen = r.gen ∧ ((tile s .sealed 0).buf 0 0).state = .sealed ∧ (s.buf 0 0).state = .free
    ∧ (h.buf 0 0).sharesRmap = true ∧ ((tile s .open_ 0).buf 0 0).vmask = 0 ∧ ((tile s .open_ 0).buf 0 0).sharesRmap = false
    ∧ (o.buf 0 0).vmask ≠ 0 ∧ (o.buf 0 0).sharesRmap = false ∧ ((o.pressAt 0).queueOf 0).length < 16 ∧ o.queueTickets 0 0 0 = []
    ∧ ¬ ((f.pressAt 0).queueOf 0).length < 16 := by decide +kernel
theorem witness_TileSeal_released : Released (start 0 false []) .cluster ∧ Released (start 0 false []) .device :=
  ⟨released_start _ _ _ _, released_start _ _ _ _⟩
/-- The checks in their order: the layout, the handle, the generation, the state, the row and the offset. -/
theorem witness_TileTraps : let s := tile (start 0 false []) .open_ 0
    let x := s.buf 0 0
    s.cur < 1536 ∧ s.pc ≠ 0xFFFC ∧ s.bk.inTrap = false ∧ 2 ^ 54 ≤ (2 ^ 54 : W64).toNat
    ∧ ¬ (tileRef 0xFF000000).dev = s.devNum ∧ 95 < (tileRef (96 * 2 ^ 17)).cl ∧ x.gen ≠ (tileRef 1).gen
    ∧ ((tile s .sealed 0).buf 0 0).state ≠ .open_ ∧ x.rows ≤ 2 ^ 48 / 2 ^ 48 % 2 ^ 6 ∧ 64 * x.pitch < 63 + 2 ∧ 62 + 2 ≤ 64 * x.pitch := by
  decide +kernel
/-- Operands past the last of TPOS, TRMAP and of the handle operands, and the lowest mask bit past the last row. -/
theorem witness_TileTraps_values : let s := (start 0 false []).setBuf 0 0 { state := .open_, haar := true, rows := 2, pitch := 1, vmask := 1 }
    let x := s.buf 0 0
    let m : BitVec 64 := x.vmask ||| 0xC
    2 ^ 24 ≤ (2 ^ 24 : W64).toNat ∧ (31 : W64).toNat % 32 ≠ 0 ∧ (31 : W64).toNat < 2 ^ 24 ∧ x.haar = true ∧ (1 : Nat) < x.rows
    ∧ ((tile s .open_ 0).buf 0 0).haar = false ∧ 32 ≤ (32 : W64).toNat ∧ 2 ^ 32 ≤ (2 ^ 32 : W64).toNat ∧ x.state = .open_
    ∧ (m.getLsbD 2 = true ∧ x.rows ≤ 2 ∧ (∀ j, j < 2 → m.getLsbD j = true → j < x.rows))
    ∧ (m &&& ~~~(1 : BitVec 64)).getLsbD 3 = true := by decide +kernel
/-- Descriptor numbers 63 and 64; a descriptor that a queued command names; a record in the last line of local memory. -/
theorem witness_CopyRegisters : let s := start 0 false [(1, 63), (2, 64), (3, 0xFFC0)]
    let named : CopyCmd := { fn := 0x12, seq := 1, unit := 0, task := none, regs := [(0, 63)], opnd := 0, drop := false, sealed := false,
                             src := some ⟨true, 0, 1, 1, true, [], [], [], none⟩, dst := none }
    let t := s.setChan 0 0 { queue := [named] }
    s.cur < 1536 ∧ s.pc ≠ 0xFFFC ∧ s.bk.inTrap = false ∧ (6 : BitVec 3) ≠ 7 ∧ (s.readG 1).toNat ≤ 63 ∧ 63 < (s.readG 2).toNat
    ∧ (t.cluster 0).chans.any (fun e => e.2.queue.any (fun q => q.names 63)) = true
    ∧ (s.updPress 1 (fun x => { x with busy := some (.save 0 63 [] 0 0) })).imageNames 0 63 = true ∧ s.imageNames 0 63 = false
    ∧ { s with poison := [(localBase 0 + 0xFFC0) / 8] }.bad (localBase 0 + 0xFFC0) 64 = true
    ∧ ¬ (s.cluster 0).chans.any (fun e => e.2.queue.any (fun q => q.names 63)) = true
    ∧ (s.readG 3).toNat % 64 = 0 ∧ (s.readG 3).toNat < 0x10000 ∧ s.bad (localBase 0 + 0xFFC0) 64 = false
    ∧ (s.makeDesc 0 63).toOption.isNone = true := by decide +kernel
/-- A record of a vector of 64 bytes in the first GiB (R275), and a descriptor that is valid already. -/
theorem witness_CopyRegisters_created : let s := paged (start 0 false [])
    let x : TensorDesc := ⟨true, 0, 1, 1, true, [64], [], [⟨0, 0x40000000, 0, false, false⟩], none⟩
    let t := s.setCluster 0 { s.cluster 0 with descs := [(63, x)] }
    (t.cluster 0).desc 63 = some x ∧ x.valid = true ∧ t.cwOk 0 = true := by decide +kernel
/-- Registers of each command that pass its checks, with 3 and with 4 commands queued, and registers that do not pass. -/
theorem witness_CopyIssue : let s := tile (start 0 false []) .open_ 0
    let x : TensorDesc := ⟨true, 0, 1, 1, true, [0x10000, 1, 1, 1], [1, 0, 0, 0], [⟨0, 0x40000000, 0, false, false⟩], none⟩
    let t := s.setCluster 0 { s.cluster 0 with descs := [(0, x)] }
    let k : SpliceCfg := ⟨0, 0, 0, 0, 1, 1, 1, 1, 1, 1, 1, 1, 1, []⟩
    let u := { s with splice := { s.splice with cfg := some k } }
    let c (g a0 a1 : W64) : Chan := { regs := [(2, g), (3, a0), (4, a1)] }
    s.cur < 1536 ∧ s.pc ≠ 0xFFFC ∧ s.bk.inTrap = false ∧ s.cwOk 0 = true ∧ s.cwOk 4 = false
    ∧ (s.latchLin (c 0x10000 0 0)).isSome = true ∧ (s.latchLin (c 0 0 0)).isNone = true
    ∧ (t.latchTen (c (1 + 2 ^ 15 + 2 ^ 30 + 2 ^ 45) 0 0)).isSome = true
    ∧ (s.latchTile (c (64 + 2 ^ 16) 0 0) 1 1).isSome = true
    ∧ (t.latchWblk (c 0 0 0) 0).isSome = true
    ∧ (t.latchRblk (c (1 + 32 * 2 ^ 16) 0 (1 * 16 + 32 * 2 ^ 8 + 8 * 2 ^ 16))).isSome = true
    ∧ (u.latchKvg (c 0 (2 ^ 13 * 2 ^ 24) (8 * 2 ^ 16 + 8 * 2 ^ 32))).isSome = true ∧ (u.latchMove (c 1 0 0) 0xFFFFFFFF).isNone = true
    ∧ (u.latchMove {} 0xFFFFFFFF).isSome = true ∧ (u.latchMove {} 0x100000000).isNone = true := by decide +kernel
theorem witness_CopyIssue_queue : let k : CopyCmd := { fn := 0x12, seq := 1, unit := 0, task := none, regs := [], opnd := 0, drop := false,
                                                       sealed := false, src := none, dst := none }
    (List.replicate 3 k).length < 4 ∧ 4 ≤ (List.replicate 4 k).length ∧ (start 0 false []).freeBuf 0 = some 0
    ∧ (let sh := shapeOf 0x10100
       sh.dom ≤ 1 ∧ sh.fmt ≤ 6 ∧ (0x10100 : Nat) < 2 ^ 32 ∧ sh.fits = true)
    ∧ ¬ ((tileRef 0x20000).cl = 0) ∧ 6 < (7 : W64).toNat % 16 ∧ 1 < (shapeOf 0x20).dom ∧ 6 < (shapeOf 7).fmt
    ∧ ((start 0 false []).updMe (fun x => { x with latched := some (.command [] none none false) })).me.latched
      = some (.command [] none none false) := by decide +kernel
/-- A queued command, and a started one within and at a 64-byte boundary of its destination. -/
theorem witness_CopyAbort : let s := start 0 false []
    let k : CopyCmd := { fn := 0x12, seq := 1, unit := 0, task := none, regs := [(1, 2 ^ 44), (2, 64)], opnd := 0, drop := false, sealed := false,
                         src := none, dst := none, phase := .running }
    s.cur < 1536 ∧ s.pc ≠ 0xFFFC ∧ { k with phase := .queued }.phase = .queued ∧ s.atBoundary k = true
    ∧ s.atBoundary { k with regs := [(1, 2 ^ 44 + 1), (2, 64)] } = false := by decide +kernel
/-- The last register and one past it; a press that does not run, one that does, and one that is busy. -/
theorem witness_PressRegisters : let s := start 0 false [(1, 27), (2, 28), (3, 31), (4, 32), (5, 14), (6, 1)]
    let x := s.pressAt 0
    let r := { x with st := .run }
    s.cur < 1536 ∧ s.pc ≠ 0xFFFC ∧ s.bk.inTrap = false ∧ (s.readG 1).toNat ≤ 27 ∧ 27 < (s.readG 2).toNat ∧ (s.readG 3).toNat ≤ 31
    ∧ 31 < (s.readG 4).toNat ∧ x.isBusy s.cycle = false ∧ ¬ (x.st = .run ∨ x.st = .stopping) ∧ r.st = .run ∧ r.isBusy s.cycle = false
    ∧ s.evtOk (s.readG 6).toNat = true ∧ { x with busy := some (.imld 5) }.isBusy s.cycle = true
    ∧ s.evtOk (2 ^ 40) = false := by decide +kernel
theorem witness_PressCommands : let s := start 0 false [(1, 0xFFFC), (2, 0x10000), (3, 2), (4, 0xFFFC * 2 ^ 16 + 0xFFFC), (5, 4)]
    let x := s.pressAt 0
    s.cur < 1536 ∧ s.pc ≠ 0xFFFC ∧ s.bk.inTrap = false ∧ x.isBusy s.cycle = false ∧ x.st = .stopped ∧ x.held = []
    ∧ (s.readG 1).toNat < 0x10000 ∧ (s.readG 1).toNat % 4 = 0 ∧ 0x10000 ≤ (s.readG 2).toNat ∧ (s.readG 3).toNat % 4 ≠ 0
    ∧ { x with st := .run }.st = .run ∧ { x with st := .fault }.st = .fault ∧ (s.readG 4).toNat < 2 ^ 32
    ∧ (s.readG 4).toNat % 2 ^ 16 + (s.readG 5).toNat ≤ 0x10000 ∧ (s.readG 4).toNat / 2 ^ 16 % 2 ^ 16 + (s.readG 5).toNat ≤ 0x10000
    ∧ s.bad (localBase 0 + 0xFFFC) 4 = false ∧ (s.imageDesc 3 3 true).isNone = true := by decide +kernel
/-- A context image that a descriptor of 2 MiB has room for (R323). -/
theorem witness_PressCommands_image : let s := start 0 false []
    let x : TensorDesc := ⟨true, 0, 1, 1, true, [0x200000, 1, 1, 1], [1, 0, 0, 0], [⟨0, 0x40000000, 0, false, false⟩], none⟩
    let t := s.setCluster 0 { s.cluster 0 with descs := [(0, x)] }
    (t.imageDesc 0 0 true).isSome = true ∧ (t.imageDesc 0 0 false).isSome = true
    ∧ (t.updMe (fun y => { y with latched := some (.command [] (some x) none true) })).me.latched = some (.command [] (some x) none true) := by
  decide +kernel

/-! ### Hypotheses that can be met: lookup cores, Splice engine, distributor, fabric -/

/-- The last lookup core, a word past the last, a copy of one word, a core that runs, and a full queue. -/
theorem witness_LookupCommands : let s := start 0 true [(1, 127 + 3 * 2 ^ 8), (2, 2 ^ 10), (3, 0xFFFC + 0x7FFC * 2 ^ 16 + 127 * 2 ^ 32), (4, 4), (5, 0x7FFC)]
    let r := s.updCore 1536 (fun c => { c with look := { c.look with run := true } })
    let f := s.updCore 1663 (fun c => { c with eq := [(3, List.replicate 16 ⟨0, .core⟩)] })
    let v := (s.readG 3).toNat
    s.cur < 1536 ∧ s.pc ≠ 0xFFFC ∧ s.bk.inTrap = false ∧ s.super = true ∧ (s.readG 1).toNat < 2 ^ 10 ∧ (s.readG 1).toNat / 2 ^ 7 % 2 = 0
    ∧ (mget [] (s.core 1663).eq 3).length < 16 ∧ 16 ≤ (mget [] (f.core 1663).eq 3).length ∧ 2 ^ 10 ≤ (s.readG 2).toNat
    ∧ (s.readG 0).toNat < 128 ∧ 128 ≤ (s.readG 2).toNat ∧ (4 : BitVec 3).toNat ≤ 4
    ∧ v / 2 ^ 31 % 2 = 0 ∧ v < 2 ^ 39 ∧ (s.core (1536 + v / 2 ^ 32 % 128)).look.run = false ∧ v % 2 ^ 16 % 4 = 0 ∧ v / 2 ^ 16 % 2 ^ 15 % 4 = 0
    ∧ v % 2 ^ 16 + 4 ≤ 0x10000 ∧ v / 2 ^ 16 % 2 ^ 15 + 4 ≤ 0x8000 ∧ s.bad (localBase 0 + 0xFFFC) 4 = false
    ∧ (s.readG 5).toNat < 0x8000 ∧ (s.readG 5).toNat % 4 = 0 ∧ (r.core 1536).look.run = true
    ∧ (s.haltCore 1536).atRest 1536 = true
    ∧ ((s.updSlot 1536 0 (fun x => { x with st := .run, wait := .release })).haltCore 1536).atRest 1536 = false := by decide +kernel
theorem witness_LookupCommands_released : Released (start 0 true []) .device := released_start _ _ _ _
/-- The last line of the store, descriptor 7, an open bag, and codes past the last. -/
theorem witness_LookupTables : let s := start 1536 false [(1, 0x7FC0), (2, 7), (3, 8), (4, 2 ^ 12 + 2 * 2 ^ 8)]
    let d : TableDesc := ⟨true, false, false, 10, 2, 0, 8, 0, 0, [⟨0, 0x40000000, 0, false, false⟩]⟩
    let t := s.updCore 1536 (fun c => { c with look := { c.look with desc := [(0, d)] } })
    let b := s.updMe (fun x => { x with bag := some ⟨7, .sum, false, 0, [0]⟩ })
    1536 ≤ s.cur ∧ s.pc ≠ 0xFFFC ∧ s.bk.inTrap = false ∧ (s.readG 1).toNat % 64 = 0 ∧ (s.readG 1).toNat < 0x8000 ∧ (s.readG 2).toNat ≤ 7
    ∧ s.bad (storeBase 0 + 0x7FC0) 64 = false ∧ (s.makeTable 0 7).toOption.isNone = true ∧ 7 < (s.readG 3).toNat
    ∧ (b.core 1536).slots.any (fun e => match e.2.bag with | some g => g.desc == 7 | none => false) = true
    ∧ ¬ (s.core 1536).slots.any (fun e => match e.2.bag with | some g => g.desc == 7 | none => false) = true
    ∧ (t.core 1536).look.validDesc ((s.readG 4).toNat % 8) = some d ∧ d.csr = false ∧ (s.readG 4).toNat / 8 % 32 = 0
    ∧ (s.readG 4).toNat / 2 ^ 8 % 4 ≠ 3 ∧ (s.readG 4).toNat / 2 ^ 10 % 4 = 0 ∧ (s.readG 4).toNat < 2 ^ 13
    ∧ (s.core 1536).look.validDesc 0 = none ∧ b.me.bag.isSome = true := by decide +kernel
/-- A bag of rows of two elements; the window; indices at both ends; an open FP32 tile. -/
theorem witness_LookupWork : let d : TableDesc := ⟨true, false, false, 10, 2, 0, 8, 0, 0, [⟨0, 0x40000000, 0, false, false⟩]⟩
    let s := ((start 1536 false [(1, 9), (2, 10), (3, 0)]).updCore 1536 (fun c => { c with look := { c.look with
      desc := [(0, d)], window := [⟨0, 9, [0, 0], 1⟩] } })).updMe (fun x => { x with bag := some ⟨0, .sum, false, 0, [0, 0]⟩ })
    let l := (s.core 1536).look
    let o := tile s .open_ 0
    1536 ≤ s.cur ∧ s.pc ≠ 0xFFFC ∧ s.bk.inTrap = false ∧ s.me.bag = some ⟨0, .sum, false, 0, [0, 0]⟩ ∧ l.validDesc 0 = some d
    ∧ sfield 32 (s.readG 1).toNat < d.nrows ∧ (d.nrows : Int) ≤ sfield 32 (s.readG 2).toNat ∧ 0 ≤ sfield 32 (s.readG 3).toNat
    ∧ (l.hit 0 9 0 2).isSome = true ∧ l.hit 0 0 0 2 = none ∧ (List.replicate d.el (0 : W32)).length = 2
    ∧ (match s.lookRead d.pages ((d.vbase + 0 * d.rstr) % 2 ^ 57) 8 with | (.ok _, _) => true | _ => false) = true
    ∧ (tileAddr (o.readG 3) false).isSome = true ∧ (o.buf 0 0).state = .open_ ∧ (o.buf 0 0).haar = false ∧ (o.buf 0 0).fmt.toNat ≤ 1
    ∧ (tileHandle (s.readG 3)).isSome = true := by decide +kernel
/-- A matrix of one row with two columns, and an accumulator that can take them; stores of the accumulator through a handle,
within a line and into the next one. -/
theorem witness_LookupWork_fibre : let d : TableDesc := ⟨true, true, false, 1, 0, 0, 0x100, 0x200, 2, [⟨0, 0x40000000, 0, false, false⟩]⟩
    let s := (((start 1536 false []).updCore 1536 (fun c => { c with look := { c.look with desc := [(0, d)] } })).putNum 8 8 2).putNum 0x104 4 1
    let h := (s.writeH 1 { v := true, w := true, span := 8 }).updMe (fun x => { x with sparse := [(3, 1)] })
    let m := h.writeH 1 { v := true, w := true, pbase := 60, span := 8 }
    ((s.core 1536).look.validDesc 0).isSome = true ∧ d.csr = true ∧ (match s.fibSeq d.pages 8 0 2 with
      | .ok [p0, p1] t0 => decide (p0 = 0) && decide (p1 = 2) && decide (p1 ≤ d.nnz) && (match t0.fibSeq d.pages 4 0x100 2 with
        | .ok cols t1 => decide (cols = [0, 1]) && decide (newColumns [] cols ≤ 1024) && (match t1.fibSeq d.pages 4 0x200 2 with
          | .ok _ _ => true
          | _ => false)
        | _ => false)
      | _ => false) = true
    ∧ (h.readH 1).v = true ∧ (h.readH 1).w = true ∧ (h.readH 1).rd = false ∧ 0 + 8 * h.me.sparse.length ≤ (h.readH 1).span.toNat
    ∧ h.mapped 0 = true ∧ (m.readH 1).w = true ∧ 64 - ((m.readH 1).pbase.toNat + 0 + 8 * 0) % 64 < 8
    ∧ 64 - ((h.readH 1).pbase.toNat + 0 + 8 * 0) % 64 = 64 ∧ m.mapped 60 = true ∧ m.me.sparse.length = 1 := by decide +kernel
/-- Configured and not, 255 and 256 commands queued, the last argument inside the staging area, the last queue and register. -/
theorem witness_SpliceAndQueueCommands : let s := start 0 true [(1, 0xFC0), (2, 0x1000), (3, 63), (4, 64), (5, 9), (6, 10), (7, 65536), (8, 7)]
    let k : SpliceCfg := ⟨0, 0, 0, 0, 1, 1, 1, 1, 1, 1, 1, 1, 1, []⟩
    let c : SpliceCmd := { fn := 1, arg := 0, opt := false, serial := 1, unit := 0, task := none }
    let q : Queue := { conf := true, logn := 16 }
    let t := s.setQueue 63 q
    s.cur < 1536 ∧ s.pc ≠ 0xFFFC ∧ s.bk.inTrap = false ∧ s.splice.cfg = none ∧ (s.readG 1).toNat % 64 = 0
    ∧ (s.readG 1).toNat + 64 ≤ 4096 * k.ssize ∧ 4096 * k.ssize < (s.readG 2).toNat + 64 ∧ (List.replicate 255 c).length < 256
    ∧ 256 ≤ (List.replicate 256 c).length ∧ (s.readG 5).toNat ≤ 9 ∧ 9 < (s.readG 6).toNat ∧ s.super = true
    ∧ s.bad (localBase 0 + 0xFC0) 64 = false ∧ (s.readG 3).toNat ≤ 63 ∧ 63 < (s.readG 4).toNat ∧ (t.queue 63).conf = true
    ∧ (s.readG 8).toNat ≤ 7 ∧ (s.readG 7).toNat ≤ 65536 ∧ ((t.queue 63).tail - (t.queue 63).head).toNat + 65536 ≤ 2 ^ (t.queue 63).logn
    ∧ (match s.spliceConfigure 0 with | .ok _ => true | _ => false) = true
    ∧ { s with poison := [(localBase 0 + 0xFC0) / 8] }.bad (localBase 0 + 0xFC0) 64 = true ∧ (s.makeQueue 0 63).toOption.isNone = true := by
  decide +kernel
/-- A transfer of 8 bytes between two places of this device, commands that do not pass, a full queue, records of FAB.GRP and FAB.WIN. -/
theorem witness_FabricCommands : let s := start 0 true [(1, 0xFFC0), (2, 15), (3, 17), (4, 63)]
    let c (g a0 : W64) : Ctx := { regs := [(2, g), (3, a0)] }
    let k : FabCmd := ⟨0x10, 1, 0, 0, 0, 0, 0, 0, 0, false, none, none, false, [], 0⟩
    let g := { s with fabric := { s.fabric with groups := [(0, { members := 1, tmo := 5 })] } }
    s.cur < 1536 ∧ s.pc ≠ 0xFFFC ∧ s.bk.inTrap = false ∧ s.super = true ∧ s.moveIssue (c 8 0) 0x10 = true ∧ s.moveIssue (c 0 0) 0x10 = false
    ∧ s.cwOk 0 = true ∧ (List.replicate 7 k).length < 8 ∧ 8 ≤ (List.replicate 8 k).length
    ∧ s.tputIssue (c (2 + 2 ^ 16) 0) = true ∧ (tileHandle (s.readG 0)).isSome = true ∧ s.fabHandle 0 = true
    ∧ g.aredIssue {} (2 ^ 8) = true ∧ (s.readG 1).toNat % 64 = 0 ∧ (s.readG 1).toNat < 0x10000 ∧ s.bad (localBase 0 + 0xFFC0) 64 = false
    ∧ (s.readG 2).toNat ≤ 15 ∧ 16 < (s.readG 3).toNat ∧ nb (1 % 2 ^ 256) s.devNum = true ∧ nb 0 s.devNum = false
    ∧ (s.makeWindow 0 63).toOption.isNone = true ∧ s.windowUsed 63 = false
    ∧ ((s.resolve s.cur 0xFFF8 8).map (fun p => (p.dev, p.tile))) = some (s.devNum, false) ∧ s.bad (localBase 0 + 0xFFF8) 8 = false
    ∧ s.fabPending 0 0 0 1 = false ∧ (16 : W64).toNat = 16 ∧ s.member s.devNum = true
    ∧ (s.updMe (fun x => { x with latched := some (.command [] none none true) })).resumed = true := by decide +kernel
/-- An atomic to a local memory of device 1, with a route to it and with none. -/
theorem witness_FabricCommands_remote (h : Config.domainMember 1 = true) : let s := joined (start 0 true [])
    let r := { s with fabric := { s.fabric with links := [(0, { state := 2 })] } }
    s.resolve s.cur (2 ^ 56) 8 = some ⟨1, 0, false, 0, 0⟩ ∧ s.member 1 = true ∧ s.routeless 1 = true ∧ r.routeless 1 = false ∧ 1 ≠ s.devNum
    ∧ s.fabPending 0 0 1 1 = false := by
  have hm : (joined (start 0 true [])).member 1 = true := by
    have hd : (joined (start 0 true [])).mgmt.devnum = 0x100 := rfl
    unfold State.member
    rw [h, hd]
    simp [nb]
  exact ⟨resolve_other _ 8 (.inr rfl) hm, hm, by decide +kernel⟩
theorem witness_FabricCommands_released : Released (start 0 true []) .domain := released_start _ _ _ _

/-! ### Hypotheses that can be met: press instructions -/

theorem witness_PressScalar : let s := pressRuns
    s.pr.found = none ∧ s.pr.creg 0 = true ∧ s.pr.creg 15 = false ∧ 3 < (8 : BitVec 8).toNat := by decide +kernel
theorem witness_PressVector : let s := pressRuns
    s.pr.found = none ∧ s.pr.st = .run ∧ s.pr.faulted = false ∧ freeAt s.pr.slotFree 2 s.pr.beat = true
    ∧ freeAt s.pr.slotFree 3 s.pr.beat = true ∧ (List.range 4).all (fun l => freeAt s.pr.laneFree l s.pr.beat) = true
    ∧ s.pr.creg 0 = true ∧ s.pr.vHaar 0 = false
    ∧ (s.updPress 0 (fun x => { x with vtag := 1 })).pr.vHaar 0 = true := by decide +kernel
/-- A tile register that is ready, an idle plane of its format, banks of both tags. -/
theorem witness_PressEngines : let y : TileReg := { v := true, rdy := true, fmt := 1, rows := 1, pitch := 8, vmask := 1 }
    let q : Plane := { rfmt := 1, valid := true }
    let s := pressRuns.updPress 0 (fun x => { x with y := [(0, y)], planes := [(0, q)] })
    let h := s.updPress 0 (fun x => { x with tags := [(0, 1)] })
    s.pr.found = none ∧ s.pr.st = .run ∧ s.pr.faulted = false ∧ (s.pr.tileReg 0).v = true ∧ (s.pr.tileReg 0).rdy = true
    ∧ freeAt s.pr.yWriter 0 s.pr.beat = true ∧ freeAt s.pr.slotFree 0 s.pr.beat = true ∧ freeAt s.pr.bankFree 0 s.pr.beat = true
    ∧ s.pr.tagOf 0 = 0 ∧ h.pr.tagOf 0 = 1 ∧ (1 : BitVec 4).toNat < 2 ∧ (s.pr.tileReg 0).haar = false ∧ (s.pr.tileReg 0).fmt ≠ 6
    ∧ (s.pr.nfmtAt s.pr.atBundle % 8 = (s.pr.tileReg 0).fmt.toNat) ∧ awFits false (s.pr.nfmtAt s.pr.atBundle % 8) = true
    ∧ pairOk (s.pr.nfmtAt s.pr.atBundle % 8) (s.pr.plane s.pr.activeP).rfmt.toNat = true
    ∧ (s.mmaRows ⟨0, 0, 0, 0, 0, 0, 255, 0, false⟩ 1 (s.pr.tileReg 0) (s.planeError s.press s.pr ⟨0, 0, 0, 0, 0, 0, 255, 0, false⟩) s.pr [0]).2.2 = none
    ∧ s.pr.activeP ≠ 1 ∧ s.pr.nfmtAt s.pr.atBundle / 16 % 8 = 1 ∧ (0 : BitVec 2).toNat = bwOf 1
    ∧ (List.range 1).find? (s.loadBad (s.pr.tileReg 0) 1) = none ∧ (s.pr.plane 0).loading = false ∧ (s.pr.plane 1).loading = false := by
  decide +kernel
/-- An entry in the queue, none, a register that is ready, a queue with a place, an event queue with a place. -/
theorem witness_PressTiles : let y : TileReg := { v := true, rdy := true }
    let q := (tile pressRuns .queued 1).updPress 0 (fun x => { x with q := [(3, [(0, false)])] })
    let r := (tile pressRuns .held 1).updPress 0 (fun x => { x with y := [(7, y)] })
    q.pr.found = none ∧ q.pr.st = .run ∧ q.pr.faulted = false ∧ q.pr.creg 0 = true ∧ (q.pr.tileReg 7).v = false
    ∧ q.pr.queueOf 3 = [(0, false)] ∧ q.pr.armed 3 = [] ∧ r.pr.queueOf 3 = [] ∧ (r.pr.tileReg 7).v = true ∧ (r.pr.tileReg 7).rdy = true
    ∧ freeAt r.pr.yWriter 7 r.pr.beat = true ∧ freeAt r.pr.yReader 7 r.pr.beat = true
    ∧ (r.buf 0 0).gen = (tileRef (r.pr.tileReg 7).handle).gen ∧ r.hasPlace 0 1 3 = true ∧ r.queueTickets 0 1 3 = []
    ∧ (mget [] (r.core 15).eq 3).length < 16 ∧ r.pr.creg 1 = false ∧ (q.pr.tileReg 6).v = false := by decide +kernel

/-! ### Hypotheses that can be met: events -/

/-- A slot that runs with no word in its buffer is the one the fetch unit serves, before one that holds a word. -/
theorem witness_CoreArrivals_fetch : let s := (start 0 false []).updMe (fun x => { x with fetch := [0] })
    let t := s.setSlot 0 5 { st := .run }
    (s.core 0).fetchPick 0 = some 0 ∧ (t.core 0).fetchPick 0 = some 5 ∧ (t.core 0).fetchAt ≤ t.cycle := by decide +kernel
theorem witness_CoreArrivals : let s := (start 0 false []).updCore 0 (fun c => { c with fifo := [.line 5], l1 := [(5, { dirty := 1, valid := 1 })] })
    let w := (start 0 false []).updMe (fun x => { x with st := .wait, wait := .load 3 320 0 1, fetch := [0, 0] })
    let r := (start 0 false []).updMe (fun x => { x with wait := .release })
    let v := (start 0 false []).updMe (fun x => { x with wait := .replica 7 })
    let p := { start 0 false [] with posted := [⟨0, 0, .localMem 0, 0, [1]⟩] }
    let m := (start 0 false []).updMe (fun x => { x with wait := .remote (.value 3 true 8) })
    (w.slotOf 0 0).st = .wait ∧ (w.core 0).loadWaiters 5 ≠ [] ∧ (makeWay (w.core 0).l1 5).isSome = true ∧ (w.slotOf 0 0).wait = .load 3 320 0 1 ∧ 320 / 64 = 5
    ∧ gives (exec (.l1Fill 0 5) w) (fun t => !(t.core 0).inError 320) = true ∧ (s.core 0).fifo.find? FifoEntry.isLine = some (.line 5)
    ∧ (r.slotOf 0 0).wait = .release ∧ markerFirst 0 (r.core 0).fifo = true ∧ r.posted.any (fun p => p.unit == 0 && p.slot == 0) = false
    ∧ (v.slotOf 0 0).wait = .replica 7 ∧ p.posted[0]? = some ⟨0, 0, .localMem 0, 0, [1]⟩
    ∧ (m.slotOf 0 0).wait = .remote (.value 3 true 8) := by decide +kernel
/-- A load whose doubleword lies in two lines, the upper one held already. -/
theorem witness_CoreArrivals_lines : let w := ((start 0 false []).updMe (fun x => { x with st := .wait, wait := .load 3 316 0 1 })).updCore 0 (fun c =>
      { c with l1 := [(5, { valid := BitVec.allOnes 64 })] })
    (w.core 0).loadWaiters 4 ≠ [] ∧ (makeWay (w.core 0).l1 4).isSome = true ∧ (w.slotOf 0 0).wait = .load 3 316 0 1 ∧ 56 < 316 % 64
    ∧ (w.core 0).needs 316 4 = true ∧ gives (exec (.l1Fill 0 4) w) (fun t => (t.core 0).holds 316 && !(t.core 0).inError 316) = true := by
  decide +kernel
/-- The last line of pool memory under an enabled decoder of 256 MiB (R424). -/
theorem witness_CoreArrivals_pool : let s := { State.reset with mgmt := { State.reset.mgmt with hdm := [(0, (0x100000000001, 0x10000000))] } }
    s.isPool (64 * (0x10000FFFFFC0 / 64)) = true := by decide +kernel
theorem witness_WaitsAndTileEvents : let s := start 0 false []
    let q := (s.updMe (fun x => { x with wait := .waitq 3 1 1 })).updCore 0 (fun c => { c with eq := [(1, [⟨5, .core⟩])] })
    let m := (s.updMe (fun x => { x with wait := .mrecv 3 62 1 })).updCore 0 (fun c => { c with inbox := [⟨5, 62, 1, .core⟩] })
    let p := s.updMe (fun x => { x with wait := .msend 1 62 5 .core 1 })
    let e := s.updMe (fun x => { x with wait := .exit })
    let t : Task := { key := 4, rec_ := ⟨[]⟩, queue := 0, parts := [0] }
    let d := { s with dist := { s.dist with bound := [t] } }.updCore 0 (fun c => { c with task := some 4, ended := true })
    let o := s.setBuf 0 0 { state := .open_, timed := true, rows := 1, pitch := 1, vmask := 1 }
    let z := s.setBuf 0 0 { state := .sealed, rows := 1, pitch := 1, vmask := 1, ticket := 1 }
    (q.slotOf 0 0).wait = .waitq 3 1 1 ∧ mget [] (q.core 0).eq 1 = [⟨5, .core⟩] ∧ (∀ w ∈ (q.core 0).eqWaiters 1, 1 ≤ w.1)
    ∧ (m.slotOf 0 0).wait = .mrecv 3 62 1 ∧ (m.core 0).recvPlace 62 1 = some 0 ∧ (m.core 0).inbox[0]? = some ⟨5, 62, 1, .core⟩
    ∧ (p.slotOf 0 0).wait = .msend 1 62 5 .core 1 ∧ (p.core 1).inbox.length < 16 ∧ (e.slotOf 0 0).wait = .exit ∧ e.helpersFree 0 = true
    ∧ (d.core 0).task = some 4 ∧ d.boundTask 4 = some t ∧ (d.core 0).ended = true ∧ d.opsDone 0 = true
    ∧ (o.buf 0 0).state = .open_ ∧ (o.buf 0 0).timed = true ∧ (o.buf 0 0).due ≤ o.cycle ∧ (o.buf 0 0).sharesRmap = false
    ∧ (o.buf 0 0).vmask ≠ 0 ∧ ((o.pressAt 0).queueOf 0).length < 16 ∧ o.queueTickets 0 0 0 = []
    ∧ leastTicket (sealTickets (z.cluster 0) 0 0) = some (1, 0) ∧ z.hasPlace 0 0 0 = true ∧ (∀ j ∈ z.queueTickets 0 0 0, 1 ≤ j) := by
  decide +kernel
theorem witness_PressEvents : let s := tile pressRuns .queued 1
    let a := s.updPress 0 (fun x => { x with y := [(7, { v := true, arm := true, armq := 3, armSeq := 1 })], q := [(3, [(0, false)])] })
    let y : TileReg := { v := true, rdy := true }
    let hr : Held := ⟨.qrel 0 7, true, 0x18011, 0, [], 0, 0, 0⟩
    let h := (tile pressRuns .held 1).updPress 0 (fun x => { x with y := [(7, y)], held := [(5, hr)] })
    let b : Held := ⟨.mma ⟨0, 0, 0, 0, 0, 0, 255, 0, false⟩, true, 0x18011, 0, [], 0, 0, 0⟩
    let f := pressRuns.updPress 0 (fun x => { x with held := [(0, b)], y := [(0, { y with fmt := 2, rows := 1, pitch := 8, vmask := 1 })] })
    let d := pressRuns.updPress 0 (fun x => { x with st := .stopping })
    firstArmed ((a.pressAt 0).armed 3) = some 7 ∧ (a.pressAt 0).queueOf 3 = [(0, false)]
    ∧ (h.pressAt 0).held.find? (fun r => r.1 == PressSlot.q.code) = some (5, hr) ∧ (h.pressAt 0).st = .run ∧ (h.pressAt 0).faulted = false
    ∧ h.canResume 0 hr (heldSpec 0 hr.instr) = true ∧ leastProblem ((h.pressAt 0).tileProblem (heldSpec 0 hr.instr).tile ++ (heldSpec 0 hr.instr).check ((h.pressAt 0).heldCtx hr)) = none
    ∧ f.canResume 0 b (heldSpec 0 b.instr) = true ∧ leastProblem ((f.pressAt 0).tileProblem (heldSpec 0 b.instr).tile ++ (heldSpec 0 b.instr).check ((f.pressAt 0).heldCtx b)) ≠ none
    ∧ (d.pressAt 0).drained = true ∧ (d.pressAt 0).st = .stopping ∧ (d.pressAt 0).issue = [] ∧ { (d.pressAt 0) with faulted := true }.drained = true
    ∧ s.pressTarget 0 3 = some (0, 3) ∧ (mget [] (s.core 0).eq 3).length < 16
    ∧ ((s.resolve 0 0xFFF8 8).map (fun p => p.tile)) = some false := by decide +kernel
/-- Events of both presses of one cycle; a plane row in error; a held QREL whose register another release has emptied. -/
theorem witness_PressEvents_order :
    let both := (State.reset.updPress 0 (fun x => { x with evPost := [(1, 1, some 5)] })).updPress 1
      (fun x => { x with evPost := [(2, 1, some 5)] })
    let e := { State.reset with poison := [planeKey 0 0 0 / 8] }
    let r : Held := ⟨.qrel 0 7, true, 0x18011, 0, [], 0, 0, 0⟩
    let h := (tile pressRuns .held 1).updPress 0 (fun x => { x with held := [(5, r)] })
    both.pressTarget 0 1 = some (0, 1) ∧ both.mu0First 1 (0, 1) (some 5) = true ∧ both.mu0First 0 (0, 1) (some 5) = false
    ∧ both.mu0First 1 (0, 1) (some 4) = false ∧ both.mu0First 1 (0, 2) (some 5) = false ∧ both.mu0First 1 (0, 1) none = false ∧ e.planeBad 0 = some (planeKey 0 0 0)
    ∧ State.reset.planeBad 0 = none ∧ h.canResume 0 r (heldSpec 0 r.instr) = true
    ∧ leastProblem ((h.pressAt 0).tileProblem (heldSpec 0 r.instr).tile ++ (heldSpec 0 r.instr).check ((h.pressAt 0).heldCtx r)) ≠ none := by
  decide +kernel
theorem linePieces_below (fuel a n : Nat) : ∀ e ∈ linePieces fuel a n, e.1 < a + n := by
  induction fuel generalizing a n with
  | zero => simp [linePieces]
  | succ f ih =>
    intro e he
    unfold linePieces at he
    split at he
    · simp at he
    · rcases List.mem_cons.1 he with rfl | h
      · dsimp only; omega
      · have := ih _ _ e h
        omega
theorem piecesWrite_ok (es : List (Nat × Nat)) (h : ∀ e ∈ es, e.1 < 2 ^ 39) (s : State) (bs : List Byte) :
    ∃ t, s.piecesWrite [⟨0, 2 ^ 39, 0, false, false⟩] es bs = .ok t := by
  induction es generalizing s bs with
  | nil => exact ⟨s, rfl⟩
  | cons e es ih =>
    have he := h e (.head _)
    have ht : transIn [⟨0, 2 ^ 39, 0, false, false⟩] e.1 = some e.1 := by simp [transIn]; omega
    have hm : s.mapped e.1 = true := by
      unfold State.mapped
      rw [decide_eq_true (by unfold hbmEnd; omega), Bool.true_or]
    unfold State.piecesWrite
    rw [ht]
    simp only [hm, Bool.not_true, Bool.false_eq_true, if_false]
    exact ih (fun e' h' => h e' (.tail _ h')) _ _
theorem imageHead_short : (imageHead State.reset 0).length ≤ 0x4000 := by decide +kernel
theorem pressImage_short : (pressImage State.reset 0).length < 2 ^ 39 := by
  have := imageHead_short
  simp only [pressImage, padTo, planeRegion, Press.planeRows, List.length_append, List.length_flatMap, length_leBytes,
    List.length_map, List.length_zipIdx, List.length_replicate, List.length_range, List.map_map, Function.comp_def,
    List.map_const', List.sum_replicate_nat]
  omega
/-- A save to mapped pages, and the load of a record in memory with an error. -/
theorem witness_PressEvents_save : ∃ t, State.reset.pagesWrite [⟨0, 2 ^ 39, 0, false, false⟩] 0 (pressImage State.reset 0) = .ok t :=
  piecesWrite_ok _ (fun e he => by have := linePieces_below _ _ _ e he; have := pressImage_short; omega) _ _
theorem witness_PressEvents_load : let s := { State.reset with poison := [0] }
    (match s.loadContext 0 [⟨0, 0x40000000, 0, false, false⟩] 0 with | .ok (_, st) => decide (st = 0x10) | .error _ => false) = true := by
  decide +kernel

/-! ### Hypotheses that can be met: engines and the device -/

/-- Commands of each kind that wait, a tile in each state that CPY.WBLK meets, a copy of 64 bytes between two local memories. -/
theorem witness_CopyEvents : let s := start 0 false []
    let base : CopyCmd := { fn := 0x12, seq := 1, unit := 0, task := none, regs := [(1, 2 ^ 44), (2, 64), (6, 0xFFF8)], opnd := 0, drop := false,
                            sealed := false, src := none, dst := none }
    let t := s.setChan 0 0 { queue := [base] }
    let c := { base with phase := .running }
    let n := { base with phase := .posting, noted := [7], regs := [(5, 3)] }
    let h (r : BitVec 5) := s.setBuf 0 0 { state := .sealed, haar := true, rows := 2, pitch := 1, vmask := 3, rmap := [(1, r)] }
    let rising (x : Buffer) := ((onesAt x.vmask.toNat 64).map (fun i => (mget 0 x.rmap i).toNat)).Pairwise (· < ·)
    (t.chan 0 0).queue = [base] ∧ base.phase = .queued ∧ (s.buf 0 0).gen ≠ (tileRef 1).gen ∧ (s.buf 0 0).state = .free
    ∧ ((h 0).buf 0 0).state ≠ .free ∧ ((h 0).buf 0 0).state ≠ .open_ ∧ ¬ rising ((h 0).buf 0 0) ∧ rising ((h 1).buf 0 0)
    ∧ c.phase = .running ∧ c.reg 2 % 2 ^ 32 = 64
    ∧ (s.meshRange 0 (c.reg 0) 0).map (fun p => (p.tile, p.key)) = some (false, localBase 0)
    ∧ (s.meshRange 0 (c.reg 1) 0).map (fun p => (p.tile, p.key)) = some (false, localBase 1)
    ∧ localBase 0 + 64 ≤ localBase 1 ∧ (∀ j, j < 64 → s.bad (localBase 0 + j) 1 = false)
    ∧ n.phase = .posting ∧ s.evtTarget 0 (n.reg 5) = some (0, 3) ∧ s.evtTarget 0 (2 ^ 44 + 3) = some (1, 3)
    ∧ c.reg 6 ≠ 0 ∧ (s.resolve 0 (BitVec.ofNat 64 (c.reg 6)) 8).map (fun p => p.tile) = some false
    ∧ { c with phase := .ended }.phase = .ended ∧ 64 ≤ { c with done := 64 }.done := by decide +kernel
/-- A block of one row behind its header at 0x1000 (R283), for a ring of one buffer. -/
theorem witness_CopyEvents_block : let d : TensorDesc := ⟨true, 0x1000, 1, 1, true, [128, 1, 1, 1], [1, 0, 0, 0], [⟨0, 0x40000000, 0, false, false⟩], none⟩
    let c : CopyCmd := { fn := 0x16, seq := 1, unit := 0, task := none, regs := [(2, 1 + 2 ^ 16), (4, 0x10110)], opnd := 0, drop := false,
                         sealed := false, src := some d, dst := none, phase := .permit }
    let s := (start 0 false []).putNum 0x1000 16 (1 + 2 ^ 64)
    let sh := shapeOf (c.reg 4 % 2 ^ 32)
    let v := 1 + 2 ^ 64
    (s.chan 0 0).permits.length < c.reg 2 / 2 ^ 16 % 2 ^ 8 ∧ s.freeBuf 0 = some 0
    ∧ s.pagesRead d.pages (d.vbase + c.place) 64 = .ok (leBytes 64 v) ∧ v % 2 ^ 32 ≠ 0 ∧ v / 2 ^ 56 % 16 = sh.fmt ∧ v / 2 ^ 64 % 512 = sh.pitch
    ∧ v / 2 ^ 32 % 2 ^ 24 % 32 = 0 ∧ d.extent ≥ c.place + 64 + ones (v % 2 ^ 32) 32 * (64 * sh.pitch) := by decide +kernel
/-- A transfer that CPY.ABORT has marked goes on to its next boundary. -/
theorem witness_CopyEvents_aborting :
    let c : CopyCmd :=
      { fn := 0x12, seq := 1, unit := 0, task := none, regs := [(1, 2 ^ 44 + 8), (2, 64)], opnd := 0, drop := false, sealed := false
        src := none, dst := none, phase := .running, aborting := true }
    c.aborting = true ∧ c.done < c.reg 2 % 2 ^ 32 ∧ c.ahead = [] ∧ c.halt = none ∧ min (64 - (8 + c.done) % 64) 64 = 56 := by decide +kernel
/-- KVUNREF of a LIVE sequence without pages, and of one with a page that moved; the last frame of the other tier. -/
theorem witness_SpliceEvents : let g : SpliceCfg := ⟨0x100000, 0x200000, 0x300000, 0x10000, 1, 1, 1, 3, 1, 1, 1, 2, 1, [⟨0, 0x40000000, 0, false, false⟩]⟩
    let c : SpliceCmd := { fn := 5, arg := 0, opt := false, serial := 1, unit := 0, task := none }
    let s := (start 0 false []).updSplice (fun x => { x with cfg := some g, queue := [c], seqsT := [0], pagesT := [0], hframesT := [0] })
    let live := s.putNum (g.seqAt 0) 16 1
    let used := (s.putNum (g.seqAt 0) 16 (1 + 2 ^ 64)).putNum (g.dirAt 0) 32 (1 + 2 ^ 64 + 2 ^ 127)
    let moves : CopyCmd := { fn := 0x19, seq := 1, unit := 0, task := none, regs := [], opnd := 0, drop := false, sealed := false, src := none,
                             dst := none, phase := .request }
    let okIs {α : Type} (r : Kv α) (p : α → Bool) : Bool := match r with | .ok v => p v | .error _ => false
    let goes (r : Except Nat State) : Bool := match r with | .ok _ => true | .error _ => false
    s.splice.queue.head? = some c ∧ s.splice.waiting = false ∧ s.requestWaits = false ∧ c.step = 0 ∧ c.acc1 = 0
    ∧ okIs (live.kvArg g c 1) (fun v => v == 0) = true ∧ okIs (live.kvLive g 0) (fun v => v == (0, 0)) = true
    ∧ okIs (live.kvNum g (g.seqAt 0) 8) (fun h => h == 1) = true ∧ goes (live.pagesWrite g.pages (g.seqAt 0) (leBytes 8 0)) = true
    ∧ goes (live.pagesWrite g.pages g.sbase (leBytes 8 0x101)) = true
    ∧ okIs (used.kvBt g 0 0) (fun n => n == 0) = true
    ∧ okIs (used.kvNeed g 0) (fun d => okIs (used.kvDropRef g 0 d) (fun r => r.2 && goes (r.1.pagesWrite g.pages (g.seqAt 0) (leBytes 8 0)))) = true
    ∧ { c with step := 1, args := [0, 1] }.args = [0, 0 + 1]
    ∧ moves.phase = .request ∧ moves.opnd.toNat % 2 ^ 32 < g.npage ∧ lowestFree s.splice.qframesT g.qfr = some 0
    ∧ okIs (used.kvDir g 0) (fun d => decide (d.raw % 4 = 1) && !d.tier
        && goes (used.pagesWrite g.pages (g.dirAt 0) (leBytes 32 (d.raw + 1)))) = true := by decide +kernel
/-- An engine of two nodes, four pages of two tokens and four sequences (R427): its directory empty, its root without children. -/
def kvCfg : SpliceCfg := ⟨0x100000, 0x200000, 0x300000, 0x10000, 4, 1, 4, 1, 4, 4, 1, 2, 1, [⟨0, 2 ^ 39, 0, false, false⟩]⟩
def kvStart : State :=
  let s := (start 0 false []).updSplice (fun x => { x with cfg := some kvCfg, nodesT := [0] })
  let t := (List.range 4).foldl (fun x i => x.putNum (kvCfg.dirAt i) 32 (noLink * 2 ^ 128)) s
  t.putNum (kvCfg.nodeAt 0) 64 (2 ^ 128 - 1 + 2 ^ 192)
/-- Items of a command until it stops: the state, the status and VAL. -/
def kvSteps : Nat → State → SpliceCmd → Option (State × Nat × Nat)
  | 0, _, _ => none
  | n + 1, s, c => match kvItem kvCfg s c with
    | .ok (t, k) => kvSteps n t k
    | .error (.stop t st (some v)) => some (t, st, v)
    | .error (.stop t st none) => some (t, st, 0xBAD)
    | .error _ => none
/-- A command with its two parameters, after those before it. -/
def kvDo (x : Option (State × Nat × Nat)) (fn : Nat) (opt : Bool) (a1 a2 : Nat) : Option (State × Nat × Nat) :=
  x.bind (fun e => kvSteps 12 ((e.1.putNum (kvCfg.sbase + 8) 8 a1).putNum (kvCfg.sbase + 16) 8 a2)
    { fn := fn, arg := 0, opt := opt, serial := 1, unit := 0, task := none })
def kvEnds (x : Option (State × Nat × Nat)) : Option (Nat × Nat) := x.map (·.2)
/-- A match that finds nothing, an append of three tokens to two pages, a reference, an append that copies the shared last page,
a pin of both pages and its end, the block table, the tiers, and the end of the reference (R439, R441 to R447). -/
theorem witness_SpliceEvents_commands :
    let m := kvDo (some (kvStart, 0, 0)) 1 false 2 0
    let a := kvDo m 3 false (3 * 2 ^ 32) 0
    let r := kvDo a 4 false 0 0
    let b := kvDo r 3 false (2 ^ 32) 0
    let p := kvDo b 6 false 0 (4 * 2 ^ 24)
    let u := kvDo p 7 false 0 0
    let t := kvDo u 8 false (2 * 2 ^ 32) 0
    let f := kvDo t 9 false 0 0
    let d := kvDo f 5 false 1 0
    kvEnds m = some (1, 0) ∧ kvEnds a = some (1, 3) ∧ kvEnds r = some (1, 1) ∧ kvEnds b = some (1, 4) ∧ kvEnds p = some (1, 0)
    ∧ kvEnds u = some (1, 0) ∧ kvEnds t = some (1, 4) ∧ kvEnds f = some (1, 0) ∧ kvEnds d = some (1, 1)
    ∧ kvEnds (kvDo d 7 false 0 0) = some (0x15, 0xBAD) ∧ kvEnds (kvDo d 1 true 2 0) = some (1, 0) := by decide +kernel
/-- A tree of one page: it is matched, followed by an insert, and pruned; without it an insert finds a page that is no tree page and
a free node; a page of the pool tier is listed (R439, R440, R443, R447). -/
theorem witness_SpliceEvents_tree :
    let s := (((kvStart.putNum (kvCfg.nodeAt 0) 64 (2 ^ 64 - 1 + 2 ^ 64 + noLink * 2 ^ 96 + 2 ^ 192)).putNum (kvCfg.nodeAt 1) 64
        (noLink * 2 ^ 64 + noLink * 2 ^ 96 + 5 * 2 ^ 128 + 2 ^ 192)).putNum (kvCfg.dirAt 0) 32 (1 + 2 ^ 2 + 2 ^ 3 + 2 ^ 64 + 2 ^ 128)).updSplice
      (fun x => { x with nodesT := [0, 1], pagesT := [0], seqsT := [3], hframesT := [0] })
    let q := (s.putNum (kvCfg.seqAt 3) 16 (1 + 2 * 2 ^ 32 + 2 ^ 64)).putNum (kvCfg.btAt 3 0) 4 0
    kvEnds (kvDo (some (s, 0, 0)) 1 false 2 0) = some (1, 1) ∧ kvEnds (kvDo (some (s, 0, 0)) 1 true 2 0) = some (1, 1)
    ∧ kvEnds (kvDo (some (s, 0, 0)) 5 true 1 0) = some (1, 1)
    ∧ kvEnds (kvDo (some (q, 0, 0)) 2 false (3 + 2 * 2 ^ 32) 0) = some (1, 0)
    ∧ kvEnds (kvDo (some (q, 0, 0)) 9 false 3 0) = some (1, 1) := by decide +kernel
/-- An insert of a page that the tree lacks comes to a free node and creates it. -/
theorem witness_SpliceEvents_insert :
    let s := ((kvStart.putNum (kvCfg.seqAt 3) 16 (1 + 2 * 2 ^ 32 + 2 ^ 64)).putNum (kvCfg.dirAt 0) 32 (1 + 2 ^ 64 + noLink * 2 ^ 128)).putNum
      (kvCfg.sbase + 8) 8 (3 + 2 * 2 ^ 32)
    let c : SpliceCmd := { fn := 2, arg := 0, opt := false, serial := 1, unit := 0, task := none }
    (match kvItem kvCfg s c with
      | .ok (t, k) => decide (k.args = [3, 2]) && (match kvItem kvCfg t k with
        | .ok (u, j) => decide (j.args = [3, 2, 0]) && decide (j.step = 1) && (match u.kvNeed kvCfg 0, u.kvKey kvCfg j 0 with
          | .ok _, .ok key => decide (key = 0) && decide (u.splice.nodesT.length < kvCfg.nodes)
          | _, _ => false)
        | .error _ => false)
      | .error _ => false) = true := by decide +kernel
/-- The creation of that node completes, whatever the free values are. -/
theorem kvPut_ok (s : State) (va n v : Nat) (h : va + n ≤ 2 ^ 39) : ∃ t, s.kvPut kvCfg va n v = .ok t := by
  obtain ⟨t, ht⟩ := piecesWrite_ok (linePieces ((leBytes n v).length / 64 + 2) va (leBytes n v).length)
    (fun e he => by have := linePieces_below _ _ _ e he; rw [length_leBytes] at this; omega) s (leBytes n v)
  have hp : s.pagesWrite kvCfg.pages va (leBytes n v) = .ok t := ht
  exact ⟨t, by simp only [State.kvPut, State.kvPutBytes, hp]⟩
theorem witness_SpliceEvents_create : ∃ m u, kvStart.kvCreate kvCfg 0 0 0 1 = .ok (m, u) := by
  have hc : kvStart.kvChildren kvCfg 0 = .ok [] := by
    have h : kvStart.pagesRead kvCfg.pages (kvCfg.nodeAt 0 + 8) 4 = .ok (leBytes 4 noLink) := by decide +kernel
    simp only [State.kvChildren, State.kvNum, State.kvBytes, h]
    rfl
  have hn : kvCfg.nodes - kvStart.splice.nodesT.length = 1 := by decide +kernel
  have h1 : kvCfg.nodeAt 1 = 1060992 := by decide +kernel
  have h2 : kvCfg.nodeAt 0 = 1060864 := by decide +kernel
  unfold State.kvCreate
  rw [hc, hn]
  simp only [Nat.mod_one, bind, Except.bind, List.length_nil, Nat.zero_add, if_true, show kthFree 0 kvStart.splice.nodesT 0 = 1 by decide +kernel, h1, h2,
    show 4 * kvCfg.p = 8 by decide +kernel]
  generalize State.updSplice _ _ = s1
  choose f e2 using fun v => kvPut_ok s1 1060992 64 v (by omega)
  simp only [e2]
  generalize f _ = s2
  obtain ⟨s3, e3⟩ := kvPut_ok s2 (1060992 + 64) 8 0 (by omega)
  obtain ⟨s4, e4⟩ := kvPut_ok s3 (1060864 + 8) 4 1 (by omega)
  exact ⟨1, s4, by simp only [e3, e4]; rfl⟩
/-- A transfer of 8 bytes between local memories, a seal, requests of device 1, an all-reduce of devices 0 and 1. -/
theorem witness_FabricEvents : let s := { start 0 false [] with mgmt := { State.reset.mgmt with run := true, bootst := .ready } }
    let k : FabCmd := ⟨0x10, 1, 0, 0, 2 ^ 44, 8, 0, 0xFFF8, 0, false, none, none, false, [], 0⟩
    let z : FabCmd := { k with fn := 0x14, cw := 0 }
    let v (op : Nat) : FabCmd := { k with fn := 0x15, opnd := BitVec.ofNat 64 (op * 2 ^ 4 + 8 * 2 ^ 8), data := List.replicate 8 1 }
    let a := s.setCtx 0 0 { s.ctx 0 0 with queue := [k] }
    let o := tile s .open_ 1
    let m := fun (op : Nat) => { s.setCtx 0 0 { s.ctx 0 0 with queue := [v op] } with fabric := { s.fabric with
      groups := [(5, { members := 3, tmo := 1 })], insts := [⟨5, 0, 0, 0, 1⟩] } }
    let own (op : Nat) : Contribution := ⟨0, aredOp (v op).opnd.toNat, aredCount (v op).opnd.toNat, 3, (v op).data⟩
    let other (op : Nat) : Contribution := { own op with dev := 1 }
    (a.ctx 0 0).queue.find? (fun e => decide (e.fn ≠ 0x15)) = some k ∧ s.cmdDev 0 k = some s.devNum
    ∧ (match a.runFab 0 k ⟨.linkdown, 0, [], 0, 0⟩ with
      | .ok r => decide (r.s.cores = a.cores) && decide (r.s.mgmt = a.mgmt) && decide (r.status = 1)
      | .error _ => false) = true
    ∧ (s.resolve 0 k.cw 8).map (fun q => q.tile) = some false
    ∧ (tileRef (z.opnd.truncate 32)).dev = s.devNum ∧ s.fabPending 0 z.slot s.devNum z.order = false ∧ (o.buf 0 0).state = .open_
    ∧ (o.buf 0 0).sharesRmap = false ∧ (o.buf 0 0).vmask ≠ 0 ∧ (o.buf 0 0).gen = (tileRef (z.opnd.truncate 32)).gen
    ∧ s.mgmt.run = true ∧ (1 : Nat) ≠ s.devNum ∧ (s.resolve 0 0xFFC0 1).map (fun p => (p.dev, p.tile, p.off)) = some (s.devNum, false, 0xFFC0)
    ∧ (∀ j, j < 64 → s.bad (localBase 0 + 0xFFC0 + j) 1 = false) ∧ (mget [] (s.core 0).eq (7 % 4)).length < 16
    ∧ (∀ op ∈ [9, 3], ((m op).aredOldest 5).isSome = true ∧ (rankOrder (own op) [other op]).length = 1 + 1
      ∧ (onesAt ((m op).group 5).members.toNat 256).filter (fun d => decide (d ≠ s.devNum)) = [1] ∧ (own op).op = op
      ∧ (other op).members = ((m op).group 5).members ∧ ((m op).group 5).tmo ≠ 0)
    ∧ (own 3).count = 8 ∧ 0xFFC0 % 64 + 8 * aredBytes 3 ≤ 64
    ∧ 2 ≤ { s.link 15 with state := 3 }.state ∧ (mget [] s.mgmt.retrains 0).length < 3
    ∧ (List.replicate 16 ((0x100000000001, 0x10000000) : W64 × W64)).all hdmFits = true
    ∧ hdmFits (0x100000000001, 0x100000000000) = true ∧ s.member 1 = false := by decide +kernel
/-- A read that device 1, a member of the domain, asks for is of a member, and the reply to a read of 8 bytes fits a transfer of 8. -/
theorem witness_FabricEvents_member (h : Config.domainMember 1 = true) : (joined (start 0 false [])).member 1 = true := joined_member h []
theorem witness_FabricEvents_reply : fitsReply ⟨0x10, 1, 0, 0, 2 ^ 56, 8, 0, 0, 0, false, none, none, false, [], 0⟩ ⟨.done, 0, [], 8, 0⟩ = true := by
  decide +kernel

/-! #### Distributor -/

/-- A task of one strand on core 0, its image at 0x10000 (R457); without and with a cell to wait on, on core 0. -/
def rec1 (wait : Bool) : WorkRec := ⟨[7, 0x10000 + (if wait then 2 ^ 61 else 0), 0, 0, 0, 0, 2 ^ 16 + 2 ^ 32 + 2 ^ 48, 1 + 2 ^ 32, 1 + 2 ^ 32, 1 + 2 ^ 32, 0,
  if wait then 2 ^ 31 + 0x100 else 0, 11, 12, 13, 14]⟩
/-- The image of R135: one segment of 8 bytes for local memory; entry 0x40. -/
def image1 (s : State) : State := (s.putNum 0x10000 16 (0x14C4E + 2 ^ 32 + 0x40 * 2 ^ 64)).putNum 0x10020 16 (1 + 8 * 2 ^ 64 + 64 * 2 ^ 96)
/-- A running device with queue 3, whose one record stands at 0x20000. -/
def dist1 (wait : Bool) : State :=
  let s := image1 (paged (start 0 false []))
  let t := ((rec1 wait).words.zipIdx).foldl (fun x e => x.putNum (0x20000 + 8 * e.2) 8 e.1.toNat) s
  { t with mgmt := { t.mgmt with run := true } }.setQueue 3
    { conf := true, en := true, logn := 4, base := 0x20000, tail := 1, pages := [⟨0, 0x40000000, 0, false, false⟩] }

theorem witness_DistributorEvents_admit : let s := dist1 false
    let w := (dist1 true).putNum (localBase 0 + 0x100) 8 5
    let x := s.queue 3
    s.alive = true ∧ x.conf = true ∧ x.en = true ∧ x.unread ≠ 0 ∧ x.adm = none ∧ s.readRecord x x.head.toNat = some (rec1 false)
    ∧ s.causes (rec1 false) x.supok = 0 ∧ (rec1 false).wait = false
    ∧ w.readRecord x 0 = some (rec1 true) ∧ w.causes (rec1 true) x.supok = 0 ∧ (rec1 true).wait = true ∧ w.freeEntry = some 0
    ∧ w.numAt (refKey (rec1 true).wcell) 8 % 2 ^ 32 ≠ 0 ∧ (start 0 false []).causes (rec1 false) false ≠ 0 := by decide +kernel
/-- A ready task that inherits nothing, one that does, and one whose deadline has passed among the candidates. -/
theorem witness_DistributorEvents_select : let s := dist1 false
    let t : Task := { key := 0, rec_ := rec1 true, queue := 3 }
    let late : Task := { t with rec_ := ⟨(rec1 true).words.set 3 1⟩ }
    let r (t : Task) := s.updDist (fun d => { d with parked := [(5, t)], ready := [5] })
    let c (t : Task) := { s with time141 := 141 }.updDist (fun d => { d with runLists := [(0, [(0, t)])] })
    (r t).readyAt 0 = [(5, t)] ∧ t.inherits = false ∧ ((r t).dist.runList 0).length < 16
    ∧ (r { t with disc := true }).readyAt 0 = [(5, { t with disc := true })] ∧ { t with disc := true }.inherits = true
    ∧ s.dist.selected = none ∧ ((bestCand ((c t).restoreCands ++ (c t).runCands ++ (c t).headCands)).map (fun d => (d.kind, d.task.rec_.deadline))) = some (1, 0)
    ∧ ((bestCand ((c late).restoreCands ++ (c late).runCands ++ (c late).headCands)).map (fun d => (d.kind, d.task.rec_.deadline))) = some (1, 1)
    ∧ (c late).time141 / 141 = 1 := by decide +kernel
theorem witness_DistributorEvents_bind : let t : Task := { key := 0, rec_ := rec1 false, queue := 3 }
    let s := ((dist1 false).updDist (fun d => { d with selected := some t })).updMe (fun x => { x with st := .free })
    let r := t.rec_
    s.alive = true ∧ s.dist.restoring = false ∧ s.canBind r = true ∧ r.deadline = 0 ∧ r.shape = false
    ∧ (match s.imageAt r.image with
      | some m => (s.contents r m.segs 1).isSome && (s.contents r m.segs 2).isSome && (s.contents r m.segs 3).isSome
      | none => false) = true ∧ r.parts = [0] := by decide +kernel
/-- A task that blocks another of lower level; one whose slots are saved; one that awaits its cores; one that is over. -/
theorem witness_DistributorEvents_ends : let s := dist1 false
    let b : Task := { key := 1, rec_ := ⟨(rec1 false).words.set 1 (0x10000 + 2 ^ 58)⟩, queue := 3, level := 3, parts := [0] }
    let t : Task := { key := 2, rec_ := rec1 false, queue := 3 }
    let p := s.updDist (fun d => { d with selected := some t, bound := [b] })
    let g := s.updDist (fun d => { d with bound := [b], stopping := [1] })
    let r := (s.updMe (fun x => { x with st := .free })).updDist (fun d => { d with selected := some b, restoring := true })
    let o : Task := { b with reported := [0] }
    let e := s.updDist (fun d => { d with bound := [o], halted := [(1, 0)] })
    p.dist.bound.filter (fun b => p.dist.stopping.contains b.key) = [] ∧ p.blockers t = [b] ∧ [b].all (p.mayPreempt t.level) = true
    ∧ g.victims = [b] ∧ g.choosing.victims = [b] ∧ (s.choosing.victims = [] ∧ [b].all (p.mayPreempt 5) = false)
    ∧ (let h := b.parts.foldl State.haltCore g.choosing
       h.atRest 0 = true ∧ h.opsDone 0 = true ∧ (h.core 0).ended = false ∧ h.pressesIdle b = true)
    ∧ (b.parts.foldl State.haltCore (g.updMe (fun x => { x with wait := .release }))).atRest 0 = false
    ∧ b.parts ≠ []
    ∧ b.parts.all r.coreFree = true ∧ b.presses.all r.pressFree = true ∧ e.boundTask 1 = some o ∧ o.over = true ∧ o.parts ≠ []
    ∧ e.pressesIdle o = true ∧ e.dist.halted.find? (fun h => h.1 == 1) = some (1, 0)
    ∧ (let h := o.parts.foldl State.haltCore e
       h.atRest 0 = true ∧ h.opsDone 0 = true ∧ h.pressesIdle o = true) := by decide +kernel

/-! #### Device, step, encodings, memory -/

/-- The host owns the device; it is ready; the check runs; a full queue; an invalidation under way. -/
theorem witness_DeviceEvents : let s := start 0 false []
    let g := { s.mgmt with owner := 1, bootst := .ready }
    let t := { s with mgmt := { g with run := true } }.setQueue 63 { conf := true, logn := 16 }
    let i : Inval := ⟨0x1000, 0x1000, 0, [], [], [], []⟩
    let v : W64 := 2 ^ 32
    (s.mgmt.owner % 4 + (if s.mgmt.expert then 4 else 0) + s.mgmt.epoch.toNat * 2 ^ 16 = v.toNat % 2 ^ 32
      ∧ s.mgmt.owner = 0 ∧ v.toNat / 2 ^ 32 % 4 = Master.code .host)
    ∧ g.owner = Master.code .host ∧ 0x1000 ≤ (0x1000000 : W64).toNat ∧ s.mgmt.bootst ≠ .check ∧ { g with bootst := .check }.bootst = .check
    ∧ (511 : W64).toNat < 512 ∧ s.mgmt.run = false ∧ (2 ^ 52 - 4096 : W64).toNat % 4096 = 0 ∧ (2 ^ 52 - 4096 : W64).toNat < 2 ^ 52
    ∧ { g with expert := true }.expert = true ∧ (3200 : W64).toNat ≤ 3200 ∧ (2 ^ 52 - 2 ^ 36 : W64).toNat % 2 ^ 36 = 0
    ∧ (t.queue 63).conf = true ∧ ((t.queue 63).tail - (t.queue 63).head).toNat + (65536 : W64).toNat ≤ 2 ^ (t.queue 63).logn
    ∧ t.mgmt.run = true ∧ t.mgmt.inval = none ∧ (0x40000002 : W64).toNat / 4 % 1024 = 0 ∧ (0x40000002 : W64).toNat % 4 ≠ 3
    ∧ { g with inval := some i }.inval = some i ∧ s.translationHeld i.va i.size = false ∧ s.accessHeld i = false
    ∧ 0xFFFFC0 + (List.replicate 64 (0 : Byte)).length ≤ 0x1000000 ∧ 0xFFFFC0 % 64 + 64 ≤ 64 ∧ s.mgmt.bootst ≠ .ready
    ∧ (let c : ErrCount := ⟨.core 1535, 15, 0, [], false⟩
       ({ s with mgmt := { g with errs := [c] } }.errCount (.core 1535)).count = 15) ∧ (s.errCount (.core 0)).count ≠ 15 := by decide +kernel
/-- Readings above, below and between the limits; a step up that is due; an access in flight; errors at the threshold; a register
read; granules of each memory at its end. -/
theorem witness_DeviceEvents_more : let s := start 0 false []
    let p : Posted := ⟨0, 0, .line 64, 0x1000, [1]⟩
    let held := { s with posted := [p] }
    s.mgmt.plim < 3201 ∧ (95 ≤ 95 ∧ 100 * 2000 < 95 * s.mgmt.plim ∧ 89 < 90) ∧ 3190 ≤ s.mgmt.plim ∧ ¬ (100 * 3190 < 95 * s.mgmt.plim)
    ∧ s.mgmt.coolSince = none ∧ 0 + 100000000 ≤ { s with time141 := 14100000000 }.time141 / 141
    ∧ held.accessHeld (held.inFlight 0x1000 0x1000) = true ∧ s.accessHeld (s.inFlight 0x1000 0x1000) = false
    ∧ s.mgmt.errThresholds.getD 2 0 = 15 + 1 ∧ (0x08 % 8 = 0 ∧ ¬ (0x2000 ≤ 0x08 ∧ 0x08 < 0x4000))
    ∧ 8 * (0xB2D05DFFF8 / 8) < 0xB2D05E0000 ∧ 8 * (localBase 1536 / 8 - 1) < localBase 1536 := by decide +kernel
/-- An assigned word, an unassigned one, a lookup slot outside its store, no slot, a press within a group and at its start. -/
theorem witness_StepRunsDecoded : let s := State.reset.withFetchWord 32 0x2042FFFF
    let e := State.reset.withFetchWord 32 0xFFFFFFFF
    let l := (State.reset.withFetchWord 32 0xE8000016).updSlot 1536 0 (fun x => { x with b0 := { x.b0 with pc := 0x8000 } })
    let p := { (encodeBundle true [.smovi 0 1 3]).zipIdx.foldl (fun x e => x.putNum (imemBase 0 + 4 * e.2) 4 e.1.toNat) pressRuns with
      mgmt := { State.reset.mgmt with run := true } }
    let x := p.pressAt 0
    s.agenda = [.unit 0] ∧ s.alive = true ∧ (s.nextIssue 0).map (fun c => (s.until_ c).selected 0) = some (some 0)
    ∧ (s.nextIssue 0).map (fun c => decode ((s.until_ c).selecting 0 0).word |>.isOk) = some true
    ∧ (e.nextIssue 0).map (fun c => decode ((e.until_ c).selecting 0 0).word |>.isOk) = some false
    ∧ (l.nextIssue 1536).map (fun c => ((l.until_ c).selecting 1536 0).pc.toNat) = some 0x8000
    ∧ State.reset.nextIssue 0 = none ∧ p.alive = true ∧ (p.pressAt 0).running = true ∧ x.st = .run ∧ x.issue = [] ∧ x.faulted = false
    ∧ p.resumable 0 = none ∧ x.nextAt ≤ x.beat ∧ (match p.readGroup 0 x.pc x.bundles with
      | .ok g => g.bad.isNone && !x.blocks 0 g && (p.groupFault exec 0 (issueOrder g.instrs)).isNone && (p.startGroup 0 g).isSome
      | .error _ => false) = true := by decide +kernel
/-- TOPEN in slot 0 of cores 0 and 1 of a cluster in one cycle: core 0 goes first (R5, R246). Of two OWNCAS writes the one of the
lesser master goes first (R488). -/
theorem witness_StepRunsDecoded_order : let w := (encode? (.topen 10 8 9)).getD 0
    let s := ([0, 1].foldl (fun t u => t.updSlot u 0 (fun x => { x with st := .run, fetch := [w] }))
      { State.reset with mgmt := { State.reset.mgmt with run := true } })
    s.topenFirst 1 = some 0 ∧ s.topenFirst 0 = none ∧ (State.reset.withFetchWord 32 0x2042FFFF).topenFirst 0 = none
    ∧ inOrder [.event (.owncas .board 1), .event (.owncas .host 2), .unit 3] = [.event (.owncas .host 2), .event (.owncas .board 1), .unit 3] := by
  decide +kernel
theorem witness_StrandRoundTrip : (Instr.addi 31 30 0xFFFF).wf = true ∧ (encode? (.addi 31 30 0xFFFF)).isSome = true := by decide +kernel
theorem witness_BundleRoundTrip : let is : List Instr := [.mma ⟨0, 1, 0, 0, 0, 31, 255, 0, false⟩, .qpop 0 1 0]
    is ≠ [] ∧ (∀ i ∈ is, i.wf = true) ∧ List.Sublist [.m, .q] pressSlots ∧ is.map pressSlotOf = [PressSlot.m, .q].map some := by
  decide +kernel
theorem witness_MemoryInvariant : Memory.wf (State.reset.withFetchWord 32 0x2042FFFF).mem
    ∧ gives (step (State.reset.withFetchWord 32 0x2042FFFF)) (fun _ => true) = true := by decide +kernel

/-! ### Hypotheses of clauses on traps, clocks, engines and the device -/

/-- A mesh address with a bit set that must be 0, sums that leave OFFSET on both sides, a granule in error, and tile data of another
device. -/
theorem witness_LocalAccess_traps : let s := start 0 false [(1, 2 ^ 41), (2, 0), (3, 0xFFFFFFFF)]
    let e := { s with poison := [localBase 0 / 8] }
    let off (r : GReg) (i : BitVec 12) : Int := ((s.readG r).toNat % 2 ^ 32 : Nat) + i.toInt
    s.cur < 1536 ∧ s.bk.inTrap = false ∧ off 1 0 = 0 ∧ s.resolve 0 (2 ^ 41) 8 = none ∧ off 2 (-1) < 0 ∧ 2 ^ 32 ≤ off 3 1
    ∧ e.bad (ownBase 0 + 0) 8 = true ∧ (e.meshPlace (e.readG 2) 0 8 false).toOption.map (fun p => e.bad p.1.key 8) = some true := by
  decide +kernel
theorem witness_LocalAccess_remote_tile (h : Config.domainMember 1 = true) :
    (joined (start 0 false [])).resolve 0 (2 ^ 56 + 2 ^ 40 + 14 * 2 ^ 44) 8 = some ⟨1, 0, true, 0, 0⟩ := by
  have hm := joined_member h []
  simp [State.resolve, nb, nf, b2n, hm]
/-- Operands of MU.IMLD that R319 excludes, and a source in error. -/
theorem witness_PressCommands_imld : let s := start 0 false [(1, 2), (2, 4), (3, 0)]
    let e := { s with poison := [localBase 0 / 8] }
    (s.readG 1).toNat % 2 ^ 16 % 4 ≠ 0 ∧ (s.readG 3).toNat = 0 ∧ (s.pressAt 0).st = .stopped
    ∧ e.bad (localBase 0 + (s.readG 3).toNat % 2 ^ 16) (s.readG 2).toNat = true := by decide +kernel
/-- A CSR descriptor, and bits [11:10] of ga. -/
theorem witness_LookupTables_bopen : let d : TableDesc := ⟨true, true, false, 1, 1, 0, 0x100, 0x200, 2, []⟩
    let s := (start 1536 false [(1, 0), (2, 2 ^ 10)]).updCore 1536 (fun c => { c with look := { c.look with desc := [(0, d)] } })
    (s.core 1536).look.validDesc 0 = some d ∧ d.csr = true ∧ (s.readG 2).toNat / 2 ^ 10 % 4 ≠ 0 ∧ s.bk.inTrap = false := by decide +kernel
theorem witness_FabricCommands_error : let s := { start 0 true [(1, 0), (2, 15)] with poison := [localBase 0 / 8] }
    s.super = true ∧ (s.readG 1).toNat % 64 = 0 ∧ s.bad (localBase 0 + (s.readG 1).toNat) 64 = true ∧ (s.readG 2).toNat ≤ 15
    ∧ s.bk.inTrap = false := by decide +kernel
/-- No earlier QPUSH.E waits, and one does. -/
theorem witness_PressTiles_event : let h : Held := ⟨.qpushE 0 7 15 3, true, 0, 0, [], 0, 0, 4⟩
    pressRuns.eventPushes 15 3 = [] ∧ (pressRuns.updPress 1 (fun x => { x with held := [(5, h)] })).eventPushes 15 3 = [4] := by decide +kernel
/-- An armed tile whose timer has not reached 0 yet; counters after an increment of this cycle and of an earlier one. -/
theorem witness_WaitsAndTileEvents_time : let s := (start 0 false []).setBuf 0 0 { state := .open_, timed := true, due := 3 }
    s.mgmt.tripped = false ∧ ((s.pass 2).buf 0 0).state = .open_ ∧ ((s.pass 2).buf 0 0).timed = true
    ∧ ((s.pass 3).buf 0 0).state = .free ∧ (s.cluster 0).countAt ≤ s.cycle := by decide +kernel
/-- A block of CPY.WBLK behind its header; rows of CPY.TILE and CPY.RBLK; a whole line of a gather without gaps and a row of one with
gaps; a line of a move; an element of CPY.TEN each way. -/
theorem witness_CopyEvents_units : let s := start 0 false []
    let page : PageTr := ⟨0, 0x40000000, 0, false, false⟩
    let d : TensorDesc := ⟨true, 0x1000, 1, 4, true, [16, 1, 1, 1], [4, 0, 0, 0], [page], none⟩
    let g : SpliceCfg := ⟨0x100000, 0x200000, 0x300000, 0x10000, 1, 1, 1, 3, 256, 64, 1, 2, 1, [page]⟩
    let k := s.updSplice (fun x => { x with cfg := some g })
    let c (fn : Nat) (regs : Map W64) : CopyCmd :=
      { fn := fn, seq := 1, unit := 0, task := none, regs := regs, opnd := 0, drop := false, sealed := false, src := none, dst := none, phase := .running }
    let w := { c 0x15 [] with tile := some (0, 0), ahead := List.replicate 64 0, mask := 1, place := 64 }
    let t := c 0x14 [(2, 64 + 2 ^ 16)]
    let r := { c 0x16 [(2, 1 + 2 ^ 16), (4, 0x10110)] with src := some d, tile := some (0, 0), mask := 3 }
    let q := { c 0x17 [(3, 16 * 2 ^ 24), (4, 8 * 2 ^ 16 + 8 * 2 ^ 32)] with pins := [⟨0, false, 0⟩, ⟨1, true, 0⟩] }
    let u := { q with regs := [(3, 16 * 2 ^ 24), (4, 8 * 2 ^ 16 + 16 * 2 ^ 32)] }
    let m := { c 0x19 [] with frames := some (0, 1) }
    let i := { c 0x13 [(1, 0), (2, 16 + 2 ^ 15 + 2 ^ 30 + 2 ^ 45)] with src := some d }
    let o := { c 0x13 [(2, 16 + 2 ^ 15 + 2 ^ 30 + 2 ^ 45 + 2 ^ 63)] with dst := some d }
    (s.unitLen w, s.streamLen w) = (64, 128) ∧ (s.unitLen t, s.streamLen t) = (64, 64) ∧ (s.unitLen r, s.streamLen r) = (64, 128)
    ∧ (k.unitLen q, k.streamLen q, k.unitLen u) = (64, 128, 8) ∧ (k.unitLen m, k.streamLen m) = (64, 512)
    ∧ (s.tenEnds i).isSome = true ∧ (s.tenEnds o).isSome = true ∧ (s.unitLen i, s.unitLen o) = (16, 16)
    ∧ s.streamAt r 0 = .at 0x1040 ∧ k.streamAt q 127 = .zero ∧ s.bad 0x1040 1 = false ∧ s.mapped 0x1040 = true
    ∧ t.halt = none ∧ t.aborting = false ∧ w.ahead[63]? = some 0 ∧ r.row + 1 < ones r.mask.toNat 32
    ∧ (s.endWrite (.desc d.pages 0x1000) 0 [1]).toOption.isSome = true ∧ transIn d.pages (0x1000 + 0) = some 0x1000
    ∧ (s.buf 0 0).state ≠ .open_ ∧ (s.buf 0 0).gen = 0 := by decide +kernel
/-- A completion word in tile data. -/
theorem witness_CopyEvents_word : ((start 0 false []).resolve 0 (2 ^ 40 + 14 * 2 ^ 44) 8).map (fun p => (p.tile, p.buf)) = some (true, 0) := by
  decide +kernel
/-- An append that passes the last page of its sequence, which is LIVE. -/
theorem witness_SpliceEvents_live : let g : SpliceCfg := ⟨0x100000, 0x200000, 0x300000, 0x10000, 1, 1, 1, 3, 1, 1, 1, 2, 1, [⟨0, 0x40000000, 0, false, false⟩]⟩
    let s := (start 0 false []).putNum (g.seqAt 0) 8 (1 + 5 * 2 ^ 8)
    let c : SpliceCmd := { fn := 3, arg := 0, opt := false, serial := 1, unit := 0, task := none }
    c.step = 0 ∧ (match s.kvArg g c 1 with | .ok v => decide (v = 0) | _ => false) = true
    ∧ (match s.kvLive g 0 with | .ok _ => true | _ => false) = true := by decide +kernel
/-- A sealed tile aimed at a press of the victim. -/
theorem witness_DistributorEvents_posts : let b : Task := { key := 1, rec_ := rec1 false, queue := 3, presses := [0] }
    (tile (start 0 false []) .sealed 1).postsDue b = true ∧ (start 0 false []).postsDue b = false ∧ b.wiped = [] := by decide +kernel
/-- Offsets of BAR0 that are read only, reserved, and a doorbell; a mapped and an unmapped address behind BAR2; a threshold lowered
below the count; a core's count that has hit; the bank of R20. -/
theorem witness_DeviceEvents_writes : let s := start 0 false []
    let c : ErrCount := ⟨.core 7, 20, 0, [], false⟩
    let t := { s with mgmt := { s.mgmt with errs := [c] } }
    (0x1F8 < 0x200 ∧ 0x200 ∉ [0x08, 0x18, 0x20, 0x28, 0x30, 0x40, 0x48, 0x50, 0x68] ∧ 0x1000 + 8 * 63 < 0x1200)
    ∧ s.mapped 0x1000 = true ∧ s.mapped 0xB2D05E0000 = false ∧ (t.errCount (.core 7)).hit = false
    ∧ t.mgmt.errThresholds.getD 2 0 ≤ (t.errCount (.core 7)).count + 1 ∧ (s.errCount (.core 7)).count + 1 < s.mgmt.errThresholds.getD 2 0
    ∧ unitOfKey (padBase 2 + 0x40) = some (.bank 2 1) ∧ unitOfKey (padBase 2 + 0x800) = some (.bank 2 0) := by decide +kernel
/-- A CPY.TILE with open meets a TOPEN in a cycle. -/
theorem witness_StepRunsDecoded_open : let w := (encode? (.cpyTile 10 8 9 false true 0)).getD 0
    let s := ([0, 1].foldl (fun t u => t.updSlot u 0 (fun x => { x with st := .run, fetch := [w] }))
      { State.reset with mgmt := { State.reset.mgmt with run := true } })
    s.topenFirst 1 = some 0 ∧ s.topenFirst 0 = none := by decide +kernel

/-! ### What this model does where two things meet -/

/-- A QREL leaves the register as it stands until the next beat (R308). -/
theorem test_qrel_next_beat : gives (exec (.qrel 0 7) ((tile pressRuns .held 1).updPress 0 (fun x => { x with y := [(7, { v := true, rdy := true })] })))
    (fun t => (t.pr.tileReg 7).v && t.pr.pend == [(1, .gone 7)] && (t.buf 0 0).state == .free) = true := by decide +kernel
/-- A trap of a store names the access as a write: TASKDEC of a cell in error (R165). -/
theorem test_taskdec_error : gives (exec (.taskdec 3 1) { start 0 false [(1, 0)] with poison := [localBase 0 / 8] })
    (fun t => t.bk.ecause == 0x2014) = true := by decide +kernel
/-- A START takes the acquire mark of its starter (log entry 96). -/
theorem test_start_mark : gives (exec (.start 6 5) ((start 1536 false [(5, 0x100)]).updMe (fun x => { x with acqMark := 9 })))
    (fun t => (t.slotOf 1536 1).acqMark == 9) = true := by decide +kernel
/-- A NaN of the one member of a MERGE is canonical (R90, R418). -/
theorem test_merge_nan : aredCanon 8 0x123FFC00001 = 0x1237FC00000 := by decide +kernel

end Sys2Proof.Tests
end

section
/-! SUPPORT. The ends of instructions that both kinds of slot have, away from the end of local memory (R153), and the two kinds of
unit (R58). -/
namespace Sys2Proof.Machine

theorem isLookup_of_ge {u : Nat} (h : 1536 ≤ u) : isLookup u = true := decide_eq_true h
theorem isLookup_of_lt {u : Nat} (h : u < 1536) : isLookup u = false := decide_eq_false (Nat.not_le.mpr h)

theorem completes_onBoth {i : Instr} {s u : State} {lat : Nat} (hpc : s.pc ≠ 0xFFFC) (h : exec i s = onBoth s (.ok u lat)) :
    Completes i s u lat :=
  completes_of (by rw [h, onBoth_of s _ hpc, finish_ok])

theorem gives_onBoth {i : Instr} {s u : State} {d : GReg} {v : W64} {lat : Nat} (hpc : s.pc ≠ 0xFFFC)
    (h : exec i s = onBoth s (u.gives d v lat)) : Gives i s u d v 0 lat :=
  gives_of (by rw [h, onBoth_of s _ hpc]; rfl)

/-- The running slot is read through its core's slot table alone. -/
theorem me_updCore_of_slots (s : State) (f : Core → Core) (h : (f (s.core s.cur)).slots = (s.core s.cur).slots) :
    (s.updCore s.cur f).me = s.me := by
  simp only [State.me, State.slotOf, State.updCore, setCore_cur, setCore_slot, core_setCore, h]

end Sys2Proof.Machine
end

section
/-! PROOFS. The machine after a cold reset (R496). -/
namespace Sys2Proof.Machine

/-- No decoder is enabled, so no address is in the pool (R485, R486). -/
theorem isPool_reset (a : Nat) : State.reset.isPool a = false := by
  have hno : ∀ d, hdmHas State.reset.mgmt.hdm a d = false := fun d => by
    simp [State.reset, hdmHas, nb]
  simp [State.isPool, hno]

theorem readG_default (r : GReg) : ({} : Bank).readG r = 0 := by
  unfold Bank.readG; split <;> rfl

/-- The control registers of a press at reset, by number (R316). -/
theorem readReg_default : ∀ n ≤ 27, ({} : Press).readReg n = if n = 4 then 0x18011 else if n = 26 then 16 else 0 := by
  decide

/-- Settles O55: every table is empty, so each place reads the reset record of its kind; only the absence of pool ranges and the
numbered registers of a press have to be computed. -/
theorem resetState : Obligations.ResetState := by
  unfold Obligations.ResetState
  refine ⟨rfl, rfl, rfl, rfl, rfl, rfl, rfl, rfl, rfl, rfl, rfl, rfl, rfl, rfl, rfl, rfl, rfl, rfl, rfl, rfl, rfl, rfl, rfl,
    rfl, fun _ => rfl, isPool_reset, rfl, rfl, ?cores, ?slots, ?clusters, ?presses, rfl, rfl, rfl, fun _ => rfl,
    rfl, rfl, rfl, rfl, rfl⟩
  case cores => exact fun u => ⟨rfl, rfl, rfl, rfl, rfl, fun _ => rfl, fun _ _ => ⟨rfl, rfl⟩⟩
  case slots =>
    refine fun u i => ⟨rfl, rfl, rfl, rfl, rfl, fun _ => rfl, rfl, fun b hb => ?_⟩
    obtain rfl : b = {} := (List.mem_pair.mp hb).elim id id
    exact ⟨readG_default, rfl, fun _ => rfl, rfl, rfl, rfl, rfl, rfl, rfl, rfl, rfl, rfl, rfl, rfl⟩
  case clusters => exact fun c => ⟨rfl, rfl, fun _ => ⟨rfl, rfl⟩, fun _ => rfl, fun _ => ⟨rfl, rfl, rfl, fun _ => rfl⟩⟩
  case presses =>
    exact fun p => ⟨rfl, rfl, rfl, rfl, fun _ => rfl, fun _ => rfl, rfl, fun _ => rfl, readReg_default⟩

end Sys2Proof.Machine
end

section
/-! PROOFS. Local memory: a load finds its slot's earlier store (R66, R67). -/
namespace Sys2Proof.Machine

theorem pow_bytes_memSize (z : MemSize) : 256 ^ z.bytes = 2 ^ (8 * z.bytes) := by cases z <;> rfl

theorem toNat_w64_toNat (v : W64) : (w64 v.toNat).toNat = v.toNat := by simp [w64]

theorem ownSize_eq (u : Nat) : ownSize u = if 1536 ≤ u then 0x8000 else 0x10000 := by simp [ownSize, isLookup]

theorem readG_retire (s : State) (lat : Nat) (r : GReg) : (s.retire lat).readG r = s.readG r := by
  unfold State.readG; rw [bk_retire]; rfl

/-- An aligned offset inside the slot's own memory (R233, R379). -/
theorem localOff_ok {s : State} {ga : W64} {i : BitVec 12} {n : Nat} (wr : Bool)
    (hs : (ga + sx i).toNat + n ≤ ownSize s.cur) (hal : (ga + sx i).toNat % n = 0) :
    s.localOff ga i n wr = .ok (ga + sx i).toNat := by
  unfold State.localOff
  rw [if_neg (by omega)]

/-- SL at such an offset posts its bytes and completes. -/
theorem exec_sl {s : State} {x a : GReg} {z : MemSize} {i : BitVec 12} {o : Nat} (hpc : s.pc ≠ 0xFFFC)
    (ho : s.localOff (s.readG a) i z.bytes true = .ok o) :
    exec (.sl x a z i) s = .next ((s.post (.localMem s.cur) (w64 o) (leBytes z.bytes (s.readG x).toNat)).retire 4) := by
  show execSl x a z i s = _
  rw [execSl, ho, onBoth_of s _ hpc, finish_ok]

/-- LL at such an offset gives the number there, once the slot's earlier stores have landed, if no granule is in error. -/
theorem gives_ll {s : State} {d a : GReg} {z : MemSize} {i : BitVec 12} {o : Nat} (x : Bool) (hpc : s.pc ≠ 0xFFFC)
    (ho : s.localOff (s.readG a) i z.bytes false = .ok o)
    (hbad : (s.landFor s.cur (.localMem s.cur)).bad (ownBase s.cur + o) z.bytes = false) :
    Gives (.ll d a z x i) s (s.landFor s.cur (.localMem s.cur)) d
      (extended z.bytes ((s.landFor s.cur (.localMem s.cur)).numAt (ownBase s.cur + o) z.bytes) x) 0 6 := by
  apply gives_onBoth hpc
  show execLl d a z x i s = _
  simp only [execLl, ho, State.loadAt, hbad, Bool.false_eq_true, if_false]

/-! ### The landing of posted stores -/

theorem mem_touchPool (s : State) (a : Nat) (w : Bool) : (s.touchPool a w).mem = s.mem := by
  unfold State.touchPool; split <;> rfl

/-- What a landing leaves in memory depends on memory alone. -/
theorem mem_land_congr {s t : State} (h : s.mem = t.mem) (p : Posted) : (s.land p).mem = (t.land p).mem := by
  unfold State.land
  cases p.dest with
  | localMem c => exact congrArg (writeBytes · _ _) h
  | line n =>
    simp only [State.homePut, mem_touchPool]
    exact congrArg (writeBytes · _ _) h
  | device v c => exact h

theorem mem_lands_congr (ps : List Posted) {s t : State} (h : s.mem = t.mem) :
    (ps.foldl State.land s).mem = (ps.foldl State.land t).mem := by
  induction ps generalizing s t with
  | nil => exact h
  | cons p ps ih => exact ih (mem_land_congr h p)

/-- A posted store that goes where its unit then looks lands last, after the earlier ones on the path (R67). -/
theorem landFor_last {s t : State} {u : Nat} {d : PostDest} {p : Posted} (hp : samePath u d p = true)
    (hposted : t.posted = s.posted ++ [p]) (hmem : t.mem = s.mem) :
    ∃ v : State, v.mem = (s.landFor u d).mem ∧ t.landFor u d = v.land p := by
  refine ⟨(s.posted.filter (samePath u d)).foldl State.land
    { t with posted := t.posted.filter (fun p => !samePath u d p) }, mem_lands_congr _ hmem, ?_⟩
  simp [State.landFor, hposted, hp]

/-- The unit's last store into its own memory, landed over the memory that its earlier stores there have left. -/
theorem landFor_post_retire (s : State) (o : W64) (bs : List Byte) (lat : Nat) :
    ∃ v : State, v.mem = (s.landFor s.cur (.localMem s.cur)).mem
      ∧ (((s.post (.localMem s.cur) o bs).retire lat).landFor s.cur (.localMem s.cur)) = v.put (ownBase s.cur + o.toNat) bs :=
  landFor_last (t := (s.post (.localMem s.cur) o bs).retire lat)
    (p := { unit := s.cur, slot := s.slot, dest := .localMem s.cur, addr := o, bytes := bs })
    (by simp [samePath, sameDest]) rfl rfl

/-- Settles O22: the SL has become the last posted store on the slot's path to its own memory, so the LL finds it landed over what
the earlier stores there have left. -/
theorem localReadAfterWrite : Obligations.LocalReadAfterWrite := by
  unfold Obligations.LocalReadAfterWrite
  intro s t d r a z i hpc hpc' n ea u hsl hal hsize hbad
  have hfits : ea.toNat + n ≤ ownSize s.cur := by rwa [ownSize_eq]
  rw [exec_sl hpc (localOff_ok true hfits hal)] at hsl
  obtain ⟨v, hv, hu⟩ := landFor_post_retire s (w64 ea.toNat) (leBytes n (s.readG r).toNat) 4
  obtain rfl := Host.Outcome.next.inj hsl
  rw [toNat_w64_toNat] at hu
  replace hu : u = v.put (ownBase s.cur + ea.toNat) (leBytes n (s.readG r).toNat) := hu
  constructor
  · have hval : u.numAt (ownBase s.cur + ea.toNat) n = (s.readG r).toNat % 2 ^ (8 * n) := by
      rw [hu, numAt_put, pow_bytes_memSize]
    rw [← hval]
    refine gives_ll false hpc' ?_ hbad
    rw [readG_retire]
    exact localOff_ok false hfits hal
  · intro x hx
    rw [hu, byteAt_put_out v _ _ x (by rwa [length_leBytes])]
    exact congrArg (mget 0 · x) hv

end Sys2Proof.Machine
end

section
/-! PROOFS. Identity, time, prefetch and fences (R158, R229, R241, R242, R262). -/
namespace Sys2Proof.Machine

/-! ### Identity registers -/

theorem identity_strand {s : State} {n : Nat} (hn : n ≠ 3) (hl : isLookup s.cur = false) :
    s.identity n = mget 0 (s.core s.cur).ident n := by
  simp [State.identity, hn, hl]

/-- What a lookup slot reads (R378). -/
theorem identity_lookup {s : State} {n : Nat} (hn : n ≠ 3) (hl : isLookup s.cur = true) : s.identity n =
    if n = 0 then w64 s.devNum else if n = 1 then w64 ((s.cur - 1536) / 8 * 2 ^ 16) else if n = 2 then w64 s.cur else 0 := by
  simp [State.identity, stackOf, hn, hl]

theorem gives_rdid {s : State} (d : GReg) (n : BitVec 4) (hpc : s.pc ≠ 0xFFFC) :
    Gives (.rdid d n) s s d (s.identity n.toNat) 0 4 := gives_onBoth hpc rfl

/-! ### PREF -/

/-- A live handle of an HBM page, and an offset inside it, used by a strand core. -/
def prefHits (s : State) (hd : Handle) (o : Int) : Prop :=
  hd.v = true ∧ hd.pool = false ∧ 0 ≤ o ∧ o < hd.span.toNat ∧ s.cur < 1536

theorem prefLine_of_hits {s : State} {hd : Handle} {o : Int} (h : prefHits s hd o) :
    s.prefLine hd o = some (2 * ((hd.pbase.toNat + o.toNat) / 64) + (if hd.rd then 1 else 0)) := by
  obtain ⟨hv, hp, h0, hs, hc⟩ := h
  simp [State.prefLine, hv, hp, h0, hs, isLookup_of_lt hc, b2n]

theorem prefLine_of_misses {s : State} {hd : Handle} {o : Int} (h : ¬ prefHits s hd o) : s.prefLine hd o = none := by
  unfold State.prefLine
  rw [if_neg]
  simpa [prefHits, isLookup, and_assoc] using h

theorem completes_pref_line {s : State} {a : GReg} {h : HReg} {i : BitVec 8} {x : Nat} (hpc : s.pc ≠ 0xFFFC)
    (hx : s.prefLine (s.readH h) ((s.readG a).toInt + 64 * i.toInt) = some x) :
    Completes (.pref a h i) s
      (s.updCore s.cur (fun c => { c with pref := if x ∈ c.pref then c.pref else c.pref ++ [x] })) 4 := by
  apply completes_onBoth hpc
  show execPref a h i s = _
  simp only [execPref, hx, List.contains_iff_mem]

theorem completes_pref_none {s : State} {a : GReg} {h : HReg} {i : BitVec 8} (hpc : s.pc ≠ 0xFFFC)
    (hx : s.prefLine (s.readH h) ((s.readG a).toInt + 64 * i.toInt) = none) : Completes (.pref a h i) s s 4 := by
  apply completes_onBoth hpc
  show execPref a h i s = _
  simp only [execPref, hx]

/-! ### FENCE -/

theorem fenceRels_of_ne {k : FenceKind} (h : k ≠ .acq) : fenceRels k = true := by cases k <;> simp_all [fenceRels]

theorem fenceAcqs_eq (k : FenceKind) : fenceAcqs k = decide (k ≠ .rel) := by cases k <;> rfl

theorem scopeOn_strand {u : Nat} (sc : Scope) (hl : isLookup u = false) : scopeOn u sc = sc := by simp [scopeOn, hl]

/-- An acquire of a strand core works on its L1 (R63). -/
theorem acquire_strand (s : State) {u : Nat} (i : Nat) (sc : Scope) (hl : isLookup u = false) : s.acquire u i sc =
    if wideScope sc then s.setCore u { s.core u with l1 := (s.core u).l1.filterMap acquireLine } else s := by
  unfold State.acquire
  rw [scopeOn_strand sc hl, hl]
  rfl

/-- The acquire part of a strand core's FENCE, and what it costs (R63, R64, R242). -/
theorem fenceEnd_strand {s : State} (k : FenceKind) (sc : Scope) (hl : isLookup s.cur = false) :
    let acquires := k ≠ .rel ∧ 2 ≤ sc.code
    let t := if acquires then s.setCore s.cur { s.core s.cur with l1 := (s.core s.cur).l1.filterMap acquireLine } else s
    s.fenceEnd k sc =
      .ok (if k = .sc then { t with clocks := mset 0 s.clocks s.cur (s.clockOf s.cur + 1) } else t)
        (if acquires then 6 else 4) := by
  by_cases hk : k = .rel
  · subst hk; rfl
  · by_cases hw : 2 ≤ sc.code <;>
      simp [State.fenceEnd, fenceAcqs_eq, acquire_strand s s.slot sc hl, acqCost, wideScope, State.setClock, State.clockOf, hl,
        hk, hw]

/-- A FENCE whose release part, if it has one, finds nothing outstanding. -/
theorem exec_fence_released {s : State} {k : FenceKind} {sc : Scope} (h : k = .acq ∨ Released s sc) :
    exec (.fence k sc) s = onBoth s (s.fenceEnd k sc) := by
  show execFence k sc s = _
  unfold execFence
  rcases h with rfl | ⟨hdrop, hclean⟩
  · rfl
  · rw [releasing_of s sc _ hdrop hclean, ite_self]

/-- A release at a scope wider than CORE with something outstanding waits (R62). -/
theorem releasing_waits {s : State} {sc : Scope} (f : State → Done) (hsc : sc ≠ .domain) (hw : wideScope (scopeOn s.cur sc) = true)
    (hd : s.me.drained = false) (hc : s.clean = false) : s.releasing sc f = .stay s.startRelease := by
  simp [State.releasing, hsc, hw, hd, hc]

theorem startRelease_again {s : State} (h : s.me.wait = .release) : s.startRelease = s := by simp [State.startRelease, h]

theorem startRelease_first {s : State} (h : s.me.wait ≠ .release) : s.startRelease =
    (s.updCore s.cur (fun c => { c with fifo := c.fifo ++ [.marker s.slot] })).parkFor .release .run := by
  unfold State.startRelease
  split
  · contradiction
  · rfl

/-- The slot waits for its release at the same PC; whether its marker is in the FIFO already or enters now, no register and no
memory changes. -/
theorem startRelease_waits (s : State) :
    s.startRelease.me.wait = .release ∧ s.startRelease.bk = s.bk ∧ s.startRelease.mem = s.mem := by
  by_cases h : s.me.wait = .release
  · rw [startRelease_again h]
    exact ⟨h, rfl, rfl⟩
  · rw [startRelease_first h]
    refine ⟨by rw [State.parkFor, me_updMe], ?_, rfl⟩
    rw [State.bk, State.parkFor, me_updMe, me_updCore_of_slots s _ rfl]
    rfl

/-- Settles O17: RDID, TIME, YIELD, IFENCE and HDROP are each one completed effect; PREF splits on whether its address
hits, and FENCE on whether its release part has anything to wait for. -/
theorem identityTimeAndFences : Obligations.IdentityTimeAndFences := by
  unfold Obligations.IdentityTimeAndFences
  constructor
  · intro s d a n y h i hpc hd o goes
    refine ⟨?slot, ?strand, ?lookup, ?time, ?yield, ?ifence, ?hdrop, ?pref, ?noPref⟩
    case slot => exact gives_rdid d 3 hpc
    case strand =>
      intro hn hc
      rw [← identity_strand (fun h3 => hn (BitVec.eq_of_toNat_eq h3)) (isLookup_of_lt hc)]
      exact gives_rdid d n hpc
    case lookup =>
      intro hc
      have hread : ∀ m : BitVec 4, m.toNat ≠ 3 → Gives (.rdid d m) s s d (if m.toNat = 0 then w64 s.devNum
          else if m.toNat = 1 then w64 ((s.cur - 1536) / 8 * 2 ^ 16) else if m.toNat = 2 then w64 s.cur else 0) 0 4 :=
        fun m hm => identity_lookup hm (isLookup_of_ge hc) ▸ gives_rdid d m hpc
      refine ⟨hread 0 (by decide), hread 1 (by decide), hread 2 (by decide), fun hn => ?_⟩
      have hother := hread n (by omega)
      rwa [if_neg (by omega), if_neg (by omega), if_neg (by omega)] at hother
    case time => exact gives_onBoth hpc rfl
    case yield => exact completes_onBoth hpc rfl
    case ifence => exact completes_onBoth hpc rfl
    case hdrop => exact completes_onBoth hpc rfl
    case pref => exact fun hgoes => completes_pref_line hpc (prefLine_of_hits hgoes)
    case noPref => exact fun hgoes => completes_pref_none hpc (prefLine_of_misses hgoes)
  · intro s k sc hpc hc wide acq l1 u1 u
    refine ⟨?done, ?waits⟩
    case done =>
      intro hrel
      have hend : s.fenceEnd k sc = .ok u (if acq ∧ wide then 6 else 4) := fenceEnd_strand k sc (isLookup_of_lt hc)
      exact completes_onBoth hpc ((exec_fence_released hrel).trans (congrArg (onBoth s) hend))
    case waits =>
      intro hk hw hsc hdr hcl
      refine ⟨s.startRelease, ?_, startRelease_waits s⟩
      show execFence k sc s = _
      rw [execFence, fenceRels_of_ne hk, if_pos rfl, releasing_waits _ hsc ?_ hdr hcl, onBoth_of s _ hpc, finish_stay]
      rw [scopeOn_strand sc (isLookup_of_lt hc)]
      exact decide_eq_true hw

end Sys2Proof.Machine
end

section
/-! SUPPORT. The landing of posted stores and acquires: what they leave of the rest of the machine (R63, R66). -/
namespace Sys2Proof.Machine

/-! ### Fields that a write leaves -/

variable {s t : State}

theorem MemOnly.cur (h : MemOnly s t) : t.cur = s.cur := by rw [h.eq]
theorem MemOnly.slot (h : MemOnly s t) : t.slot = s.slot := by rw [h.eq]
theorem MemOnly.cycle (h : MemOnly s t) : t.cycle = s.cycle := by rw [h.eq]
theorem MemOnly.cores (h : MemOnly s t) : t.cores = s.cores := by rw [h.eq]

theorem MemOnly.posted (h : MemOnly s t) : t.posted = s.posted := by rw [h.eq]
theorem MemOnly.outbox (h : MemOnly s t) : t.outbox = s.outbox := by rw [h.eq]
theorem MemOnly.bk (h : MemOnly s t) : t.bk = s.bk := by
  simp only [State.bk, State.me, State.slotOf, State.core, h.cur, h.slot, h.cores]

theorem memOnly_land (s : State) (p : Posted) : MemOnly s (s.land p) := by
  unfold State.land
  cases p.dest with
  | localMem c => exact memOnly_put s _ _
  | line n => exact (memOnly_exchange s _ _).trans (memOnly_homePut _ _ _)
  | device v c => exact .refl s

/-- The stores of a path land on a machine from whose posted stores they are taken. -/
theorem memOnly_landFor (s : State) (u : Nat) (d : PostDest) :
    MemOnly { s with posted := s.posted.filter (fun p => !samePath u d p) } (s.landFor u d) :=
  MemOnly.foldl _ memOnly_land _ _

@[simp] theorem landFor_cur (s : State) (u : Nat) (d : PostDest) : (s.landFor u d).cur = s.cur := (memOnly_landFor s u d).cur
@[simp] theorem landFor_slot (s : State) (u : Nat) (d : PostDest) : (s.landFor u d).slot = s.slot := (memOnly_landFor s u d).slot
@[simp] theorem landFor_cores (s : State) (u : Nat) (d : PostDest) : (s.landFor u d).cores = s.cores := (memOnly_landFor s u d).cores
@[simp] theorem landFor_bk (s : State) (u : Nat) (d : PostDest) : (s.landFor u d).bk = s.bk := (memOnly_landFor s u d).bk

/-- An acquire changes the core that acquires, and the order of uses. -/
@[simp] theorem mem_acquire (s : State) (u i : Nat) (c : Scope) : (s.acquire u i c).mem = s.mem := by
  unfold State.acquire
  split
  · split <;> rfl
  · rfl

end Sys2Proof.Machine
end

section
/-! PROOFS. Atomics at mesh addresses of this device (R232, R235, R237 to R240). -/
namespace Sys2Proof.Machine

/-! ### The parts of an order and the operations -/

theorem orderAcqs_iff (r : Order) : orderAcqs r = true ↔ r = .acquire ∨ r = .acqRel ∨ r = .seqCst := by
  cases r <;> simp [orderAcqs]

/-- An order without a release part, or a release part with nothing to wait for, leaves the access itself. -/
theorem orderRels_part {s : State} {r : Order} {c : Scope} (h : r = .relaxed ∨ r = .acquire ∨ Released s c) (k : State → Done) :
    (if orderRels r then s.releasing c k else k s) = k s := by
  rcases h with rfl | rfl | ⟨hdrop, hclean⟩
  · rfl
  · rfl
  · rw [releasing_of s c k hdrop hclean, ite_self]

/-- What each AOP writes for the old value, by its code (R237 to R239). -/
theorem aopValue_eq (k : BitVec 4) (z : AtSize) (old n m : Nat) : aopValue k z old n m =
    if k.toNat = 1 ∨ k.toNat = 2 then some n
    else if k.toNat = 3 then (if old = n then some m else none)
    else if k.toNat = 4 then some ((old + n) % 2 ^ (8 * z.bytes))
    else if k.toNat = 5 then some (old &&& n)
    else if k.toNat = 6 then some (old ||| n)
    else if k.toNat = 7 then some (old ^^^ n)
    else if k.toNat = 8 then some (if sfield (8 * z.bytes) old < sfield (8 * z.bytes) n then old else n)
    else if k.toNat = 9 then some (if sfield (8 * z.bytes) old < sfield (8 * z.bytes) n then n else old)
    else if k.toNat = 10 then some (if old < n then old else n)
    else if k.toNat = 11 then some (if old < n then n else old)
    else if k.toNat = 12 then some (fpAdd 23 0 (fpOf old) (fpOf n)).1
    else none := by
  unfold aopValue
  split <;> simp_all [pickMin, fpSum32] <;> (split <;> simp_all)


/-! ### The access at its place -/

/-- At a mesh address the end of an atomic is its seq_cst step, its acquire and its value (R58, R63, R64). -/
theorem atomEnd_mesh {t : State} {d : GReg} {r : Order} {c : Scope} {o : Aop} {old lat : Nat} (hl : isLookup t.cur = false) :
    t.atomEnd d r c o old lat none =
      let acq := r = .acquire ∨ r = .acqRel ∨ r = .seqCst
      let t3 := if r = .seqCst then t.setClock t.cur (t.clockOf t.cur + 1) else t
      let t4 := if acq then t3.acquire t.cur t.slot c else t3
      .ok (if o.gives then t4.writeG d (w64 old) else t4) (lat + if acq ∧ wideScope c = true then 2 else 0) := by
  have hcost : acqCost t.cur c = if wideScope c = true then 2 else 0 := by simp [acqCost, hl]
  simp only [State.atomEnd, orderAcqs_iff]
  by_cases hacq : r = .acquire ∨ r = .acqRel ∨ r = .seqCst
  · simp only [hacq, true_and, ← hcost]
    split <;> rfl
  · simp only [hacq, false_and, if_false]

/-- The machine in which an atomic has written its new value, if it writes one. -/
def State.putMaybe (t : State) (a n : Nat) : Option Nat → State
  | some v => t.put a (leBytes n v)
  | none => t

theorem putMaybe_cur (t : State) (a n : Nat) (v : Option Nat) : (t.putMaybe a n v).cur = t.cur := by cases v <;> rfl
theorem putMaybe_slot (t : State) (a n : Nat) (v : Option Nat) : (t.putMaybe a n v).slot = t.slot := by cases v <;> rfl

theorem byteAt_putMaybe_out (t : State) (a n : Nat) (v : Option Nat) {x : Nat} (hx : x < a ∨ a + n ≤ x) :
    (t.putMaybe a n v).byteAt x = t.byteAt x := by
  cases v with
  | none => rfl
  | some w => exact byteAt_put_out t a _ x (by rwa [length_leBytes])

/-- An atomic at a local memory, or at tile data that it may reach, with no granule in error (R235, R240). -/
theorem atomMesh_ok {s : State} {d : GReg} {r : Order} {c : Scope} {o : Aop} {p : Place} {ma : W64}
    (hopen : o.isLoad = true ∨ p.tile = false ∨ (s.buf p.cl p.buf).state = .open_)
    (hbad : (if p.tile then s else s.landFor s.cur (.localMem p.unit)).bad p.key o.size.bytes = false) :
    s.atomMesh d r c o p ma =
      let t1 := if p.tile then s else s.landFor s.cur (.localMem p.unit)
      (t1.putMaybe p.key o.size.bytes (o.write (t1.numAt p.key o.size.bytes))).atomEnd d r c o (t1.numAt p.key o.size.bytes)
        (meshTrip (clusterOf s.cur) p.cl) none := by
  have hnotClosed : (p.tile && !o.isLoad && decide ((s.buf p.cl p.buf).state ≠ .open_)) = false := by
    rcases hopen with h | h | h <;> simp [h]
  simp only [State.atomMesh, hnotClosed, hbad, Bool.and_false, Bool.false_eq_true, if_false]
  cases o.write ((if p.tile then s else s.landFor s.cur (.localMem p.unit)).numAt p.key o.size.bytes) <;> rfl

/-- Such an atomic of a strand slot whose release part has nothing to wait for. -/
theorem exec_atomic_mesh {s : State} {i : Instr} {d a : GReg} {h : HReg} {r : Order} {c : Scope} {o : Aop} {p : Place} {ma : W64}
    (hi : exec i s = s.atomic d a h r c true o) (hpc : s.pc ≠ 0xFFFC) (hcur : s.cur < 1536) (hdev : p.dev = s.devNum)
    (hrel : r = .relaxed ∨ r = .acquire ∨ Released s c)
    (hplace : s.meshPlace (s.readG a) 0 o.size.bytes (!o.isLoad) = .ok (p, ma)) :
    exec i s = finish s (s.atomMesh d r c o p ma) := by
  rw [hi]
  unfold State.atomic
  simp only [if_true, hplace]
  rw [orderRels_part hrel, if_neg (not_not_intro hdev), onStrand_of s _ hpc (isLookup_of_lt hcur)]

/-- Settles O24: the thirteen atomics are one access with thirteen operations. -/
theorem atomicsByMesh : Obligations.AtomicsByMesh := by
  unfold Obligations.AtomicsByMesh
  intro s d a e h r c z p ma hpc hcur hdev y e2 t1 new go hrel
  have hcur1 : t1.cur = s.cur := by simp only [t1]; split <;> simp
  have hslot1 : t1.slot = s.slot := by simp only [t1]; split <;> simp
  have goes : ∀ {i : Instr} {z : AtSize} {g : GReg} (k : BitVec 4) (n m : Nat),
      exec i s = s.atomic g a h r c true (mkAop k z n m) → go i z k.toNat g n m := by
    intro i z g k n m hi hplace hopen hbad t2 t3 acq t4 lat
    have hload : (mkAop k z n m).isLoad = (k.toNat == 0) := decide_eq_decide.mpr BitVec.toNat_inj.symm
    have hexec := exec_atomic_mesh hi hpc hcur hdev hrel (by rw [hload]; exact hplace)
    rw [atomMesh_ok (by rw [hload]; simpa using hopen) hbad] at hexec
    have ht2 : t2 = t1.putMaybe p.key z.bytes (aopValue k z (t1.numAt p.key z.bytes) n m) := by
      rw [aopValue_eq]; rfl
    have hcur2 : t2.cur = s.cur := by rw [ht2, putMaybe_cur, hcur1]
    have hslot2 : t2.slot = s.slot := by rw [ht2, putMaybe_slot, hslot1]
    replace hexec : exec i s = finish s (t2.atomEnd g r c (mkAop k z n m) (t1.numAt p.key z.bytes)
        (meshTrip (clusterOf s.cur) p.cl) none) := by rw [ht2]; exact hexec
    rw [atomEnd_mesh (hcur2 ▸ isLookup_of_lt hcur), hcur2, hslot2, finish_ok] at hexec
    have hgives : (mkAop k z n m).gives = true ↔ ¬ k.toNat = 1 := decide_eq_true_iff.trans BitVec.toNat_inj.symm.not
    refine ⟨?_, fun x hx => ?_⟩
    · by_cases h1 : k.toNat = 1
      · rw [if_pos h1]
        rw [if_neg (fun h => hgives.mp h h1)] at hexec
        exact completes_of hexec
      · rw [if_neg h1]
        rw [if_pos (hgives.mpr h1)] at hexec
        exact gives_of hexec
    · have hmem : t4.mem = t2.mem := by
        simp only [t4, t3]
        split <;> split <;> simp
      rw [State.byteAt, hmem, ht2]
      exact byteAt_putMaybe_out t1 _ _ _ hx
  exact ⟨goes 0 _ _ rfl, goes 1 _ _ rfl, goes 2 _ _ rfl, goes 3 _ _ rfl, goes 4 _ _ rfl, goes 5 _ _ rfl, goes 6 _ _ rfl,
    goes 7 _ _ rfl, goes 8 _ _ rfl, goes 9 _ _ rfl, goes 10 _ _ rfl, goes 11 _ _ rfl, goes 12 _ _ rfl⟩

end Sys2Proof.Machine
end

section
/-! SUPPORT. The ends of instructions that strand slots alone have, away from the end of local memory (R153), releases that find
nothing to wait for (R62), and elements of lists. -/
namespace Sys2Proof.Machine

section
variable {i : Instr} {s u : State} {d : GReg} {v : W64} {lat : Nat}

theorem completes_onStrand (hcur : s.cur < 1536) (hpc : s.pc ≠ 0xFFFC) (h : exec i s = onStrand s (.ok u lat)) :
    Completes i s u lat :=
  completes_of (by rw [h, onStrand_of s _ hpc (isLookup_of_lt hcur), finish_ok])

theorem gives_onStrand (hcur : s.cur < 1536) (hpc : s.pc ≠ 0xFFFC) (h : exec i s = onStrand s (u.gives d v lat)) :
    Gives i s u d v 0 lat :=
  gives_of (by rw [h, onStrand_of s _ hpc (isLookup_of_lt hcur)]; rfl)

theorem traps_onStrand {c : Trap} (hcur : s.cur < 1536) (hpc : s.pc ≠ 0xFFFC) (hin : s.bk.inTrap = false)
    (h : exec i s = onStrand s (.trap c)) : TrapsTo i s s c.code c.eval c.reg c.wr :=
  trapsTo_of hin (by rw [h, onStrand_of s _ hpc (isLookup_of_lt hcur), finish_trap])

theorem trapsIn_onStrand {c : Trap} (hcur : s.cur < 1536) (hpc : s.pc ≠ 0xFFFC) (hin : u.bk.inTrap = false)
    (h : exec i s = onStrand s (.trapIn u c)) : TrapsTo i s u c.code c.eval c.reg c.wr :=
  trapsTo_of hin (by rw [h, onStrand_of s _ hpc (isLookup_of_lt hcur), finish_trapIn])

end

theorem releasing_released {s : State} {sc : Scope} (h : Released s sc) (k : State → Done) : s.releasing sc k = k s :=
  releasing_of s sc k h.1 h.2

theorem acqCost_strand {u : Nat} (sc : Scope) (h : u < 1536) : acqCost u sc = if wideScope sc then 2 else 0 := by
  simp [acqCost, isLookup_of_lt h]

theorem dropNth_eq_eraseIdx {α : Type} (l : List α) (i : Nat) : dropNth l i = l.eraseIdx i := by
  induction l generalizing i with
  | nil => rfl
  | cons x l ih => cases i with
    | zero => rfl
    | succ i => exact congrArg (x :: ·) (ih i)

theorem nth_of_getElem? {α : Type} {d x : α} {l : List α} {i : Nat} (h : l[i]? = some x) : nth d l i = x := by
  obtain ⟨hi, rfl⟩ := List.getElem?_eq_some_iff.mp h
  exact nth_eq_getElem d l i hi

end Sys2Proof.Machine
end

section
/-! PROOFS. Event queues and row messages (R256, R257, R259, R260). -/
namespace Sys2Proof.Machine

variable {s : State}

/-! ### Taking and parking -/

/-- A slot that begins to wait takes the next place among the waiters. -/
theorem park_bump (s : State) (w : Wait) : (s.parkFor w .wait).bump =
    { s.setSlot s.cur s.slot { s.me with wait := w, st := .wait } with ticket := s.ticket + 1 } := rfl

theorem takeEq_nil {u n : Nat} (h : mget [] (s.core u).eq n = []) : s.takeEq u n = none := by
  simp only [State.takeEq, Core.eqOf, h]

theorem takeEq_cons {u n : Nat} {e : EqEntry} {rest : List EqEntry} (h : mget [] (s.core u).eq n = e :: rest) :
    s.takeEq u n = some (e, s.setCore u { s.core u with eq := mset [] (s.core u).eq n rest }) := by
  simp only [State.takeEq, Core.eqOf, h]
  rfl

theorem cost_strand_acquire (u : Nat) (sc : Scope) : 6 + acqCost u sc = if wideScope sc = true ∧ u < 1536 then 8 else 6 := by
  by_cases h : u < 1536
  · cases hw : wideScope sc <;> simp [acqCost, isLookup_of_lt h, hw, h]
  · simp [acqCost, isLookup_of_ge (Nat.not_lt.mp h), h]

theorem exec_waitq_takes {d : GReg} {n : BitVec 2} {e : EqEntry} {rest : List EqEntry}
    (hq : mget [] (s.core s.cur).eq n.toNat = e :: rest) (hw : ((s.core s.cur).eqWaiters n.toNat).isEmpty = true) :
    exec (.waitq d n) s = onBoth s (((s.setCore s.cur { s.core s.cur with eq := mset [] (s.core s.cur).eq n.toNat rest }).acquire
      s.cur s.slot e.scope).gives d e.word (6 + acqCost s.cur e.scope)) := by
  show execWaitq d n s = _
  simp only [execWaitq, hw, if_true, takeEq_cons hq, setCore_cur, setCore_slot]

theorem exec_waitq_parks {d : GReg} {n : BitVec 2}
    (h : mget [] (s.core s.cur).eq n.toNat = [] ∨ ((s.core s.cur).eqWaiters n.toNat).isEmpty = false) :
    exec (.waitq d n) s = onBoth s (.stay ((s.parkFor (.waitq d n.toNat (s.ticket + 1)) .wait).bump)) := by
  show execWaitq d n s = _
  rcases h with hq | hw
  · simp only [execWaitq, takeEq_nil hq, ite_self]
  · simp only [execWaitq, hw, Bool.false_eq_true, if_false]

/-! ### Posting -/

theorem postEq_room {u n : Nat} (w : W64) (sc : Scope) (h : (mget [] (s.core u).eq n).length < 16) :
    s.postEq u n w sc = some (s.updCore u (fun c => { c with eq := mset [] c.eq n (mget [] (s.core u).eq n ++ [⟨w, sc⟩]) })) :=
  if_pos h

theorem postEq_full {u n : Nat} (w : W64) (sc : Scope) (h : 16 ≤ (mget [] (s.core u).eq n).length) :
    s.postEq u n w sc = none := if_neg (Nat.not_lt.mpr h)

theorem tripFrom_eq (u cl : Nat) : tripFrom u cl = if 1536 ≤ u then 8 else meshTrip (clusterOf u) cl := by
  simp [tripFrom, isLookup]

section
variable {d a b : GReg} {n : BitVec 2} {p : Place} (hp : s.coreNamed (s.readG a) = some p) (hdev : p.dev = s.devNum)
    (hrel : Released s (between s.cur p.unit))
include hp hdev hrel

/-- POSTQ to a core of this device whose queue has a place. -/
theorem exec_postq_room (h : (mget [] (s.core p.unit).eq n.toNat).length < 16) :
    exec (.postq d a b n) s = onBoth s (((s.updCore p.unit (fun c => { c with
      eq := mset [] c.eq n.toNat (mget [] (s.core p.unit).eq n.toNat ++ [⟨s.readG b, between s.cur p.unit⟩]) })).exchange
        s.cur p.unit).gives d 1 (tripFrom s.cur p.cl)) := by
  show execPostq d a b n s = _
  simp only [execPostq, hp, if_neg (not_not_intro hdev), releasing_released hrel, postEq_room _ _ h]

/-- POSTQ to a core of this device whose queue holds 16 entries. -/
theorem exec_postq_full (h : 16 ≤ (mget [] (s.core p.unit).eq n.toNat).length) :
    exec (.postq d a b n) s = onBoth s ((s.exchange s.cur p.unit).gives d 0 (tripFrom s.cur p.cl)) := by
  show execPostq d a b n s = _
  simp only [execPostq, hp, if_neg (not_not_intro hdev), releasing_released hrel, postEq_full _ _ h]

end

/-! ### Row messages -/

/-- MSEND to a core of the row, with nothing to release. -/
theorem exec_msend_here {a b : GReg} {t : BitVec 6} {p : Place} (hp : s.coreNamed (s.readG a) = some p) (hdev : p.dev = s.devNum)
    (hrow : rowOf p.cl = rowOf (clusterOf s.cur)) (hrel : Released s (between s.cur p.unit)) :
    exec (.msend a b t) s = onStrand s (if (s.core p.unit).inbox.length < 16 then
      .ok (s.deliver p.unit ⟨s.readG b, t.toNat, s.cur, between s.cur p.unit⟩) (meshTrip (clusterOf s.cur) p.cl)
      else .stay ((s.updMe (fun y => { y with
        wait := .msend p.unit t.toNat (s.readG b) (between s.cur p.unit) (s.ticket + 1), st := .wait
        readyAt := s.cycle + meshTrip (clusterOf s.cur) p.cl })).bump)) := by
  have hhere : ¬ (p.dev ≠ s.devNum ∨ rowOf p.cl ≠ rowOf (clusterOf s.cur)) := by simp [hdev, hrow]
  show execMsend a b t s = _
  simp only [execMsend, hp, if_neg hhere, releasing_released hrel]

theorem exec_mrecv_takes {d : GReg} {t : BitVec 6} {j : Nat} {m : Message}
    (hj : (s.core s.cur).recvPlace t.toNat (s.ticket + 1) = some j) (hm : (s.core s.cur).inbox[j]? = some m) :
    exec (.mrecv d t) s = onStrand s (((s.setCore s.cur { s.core s.cur with inbox := (s.core s.cur).inbox.eraseIdx j }).acquire
      s.cur s.slot m.scope).gives d m.word (6 + acqCost s.cur m.scope)) := by
  show execMrecv d t s = _
  simp only [execMrecv, hj, nth_of_getElem? hm, dropNth_eq_eraseIdx]

theorem exec_mrecv_parks {d : GReg} {t : BitVec 6} (h : (s.core s.cur).recvPlace t.toNat (s.ticket + 1) = none) :
    exec (.mrecv d t) s = onStrand s (.stay ((s.parkFor (.mrecv d t.toNat (s.ticket + 1)) .wait).bump)) := by
  show execMrecv d t s = _
  simp only [execMrecv, h]

/-- Settles O26: what each of the four does when it can go on, and how it parks when it cannot. -/
theorem queuesAndMessages : Obligations.QueuesAndMessages := by
  unfold Obligations.QueuesAndMessages
  intro s d a b n t hpc c parks cost
  have hcost : ∀ sc, cost sc = 6 + acqCost s.cur sc := fun sc => (cost_strand_acquire s.cur sc).symm
  refine ⟨?waitq, ?waitqParks, ?post, ?mrecv, ?mrecvParks⟩
  case waitq =>
    intro e rest hq hw
    rw [hcost]
    exact gives_onBoth hpc (exec_waitq_takes hq hw)
  case waitqParks =>
    intro h
    show exec _ s = _
    rw [exec_waitq_parks h, onBoth_of s _ hpc, finish_stay, park_bump]
  case post =>
    intro p hp hdev hrel q lat
    have hlat : lat = tripFrom s.cur p.cl := (tripFrom_eq s.cur p.cl).symm
    refine ⟨fun hroom => ?room, fun hfull => ?full, fun hcur hrow => ⟨fun hroom => ?sent, fun hfull => ?waits⟩⟩
    case room => exact hlat ▸ gives_onBoth hpc (exec_postq_room hp hdev hrel hroom)
    case full => exact hlat ▸ gives_onBoth hpc (exec_postq_full hp hdev hrel hfull)
    case sent =>
      exact completes_onStrand hcur hpc (by rw [exec_msend_here hp hdev hrow hrel, if_pos hroom]; rfl)
    case waits =>
      rw [exec_msend_here hp hdev hrow hrel, if_neg (Nat.not_lt.mpr hfull), onStrand_of s _ hpc (isLookup_of_lt hcur), finish_stay]
      rfl
  case mrecv =>
    intro hcur j m hj hm
    rw [hcost]
    exact gives_onStrand hcur hpc (exec_mrecv_takes hj hm)
  case mrecvParks =>
    intro hcur h
    show exec _ s = _
    rw [exec_mrecv_parks h, onStrand_of s _ hpc (isLookup_of_lt hcur), finish_stay, park_bump]

end Sys2Proof.Machine
end

section
/-! PROOFS. Commands to presses: when they are refused and how they end, and the control registers (R316 to R318). -/
namespace Sys2Proof.Machine

/-! ### Commands to a press -/

section
variable (s : State) (d a b : GReg) (u : BitVec 1)

theorem exec_muGetr : exec (.muGetr d a u) s = execMuGetr d a u s := rfl

theorem exec_muSetr : exec (.muSetr a b u) s = s.muCommand u
    (fun x => decide (27 < (s.readG a).toNat) || readOnlyReg (s.readG a).toNat || (stoppedReg (s.readG a).toNat && x.running)
      || (decide ((s.readG a).toNat = 14) && !s.evtOk (s.readG b).toNat))
    (fun p x => .ok (s.setPress p (x.writeReg (s.readG a).toNat (s.readG b))) 8) := rfl

theorem exec_muGets : exec (.muGets d a u) s = s.muCommand u (fun x => decide (31 < (s.readG a).toNat) || x.running)
    (fun _ x => s.gives d ((mget 0 x.s (s.readG a).toNat).zeroExtend 64) 8) := rfl

theorem exec_muSets : exec (.muSets a b u) s = s.muCommand u (fun x => decide (31 < (s.readG a).toNat) || x.running)
    (fun p x => .ok (s.setPress p { x with s := mset 0 x.s (s.readG a).toNat ((s.readG b).truncate 32) }) 8) := rfl

end

section
variable {s : State} {u : BitVec 1} {bad : Press → Bool} {k : Nat → Press → Done}

theorem muCommand_refused (h : (s.pressAt (2 * (s.cur / 16) + u.toNat)).isBusy s.cycle = true
      ∨ bad (s.pressAt (2 * (s.cur / 16) + u.toNat)) = true) :
    s.muCommand u bad k = onStrand s (.trap s.command) :=
  congrArg (onStrand s) (if_pos (Bool.or_eq_true_iff.mpr h))

theorem muCommand_accepted (hfree : (s.pressAt (2 * (s.cur / 16) + u.toNat)).isBusy s.cycle = false)
    (hok : bad (s.pressAt (2 * (s.cur / 16) + u.toNat)) = false) :
    s.muCommand u bad k = onStrand s ((k (2 * (s.cur / 16) + u.toNat) (s.pressAt (2 * (s.cur / 16) + u.toNat))).answered
      (fun t => t.exchange s.cur (1664 + (2 * (s.cur / 16) + u.toNat)))) :=
  congrArg (onStrand s) (if_neg (Bool.eq_false_iff.mp (Bool.or_eq_false_iff.mpr ⟨hfree, hok⟩)))

theorem clockOf_writeG (s : State) (d : GReg) (w : W64) (i : Nat) : (s.writeG d w).clockOf i = s.clockOf i := rfl

theorem setClock_writeG (s : State) (d : GReg) (w : W64) (i : Nat) (v : W64) :
    (s.writeG d w).setClock i v = (s.setClock i v).writeG d w := rfl

/-- A value for gd and the clocks of a request are apart. -/
theorem exchange_writeG (s : State) (d : GReg) (w : W64) (i j : Nat) :
    (s.writeG d w).exchange i j = (s.exchange i j).writeG d w := by
  simp only [State.exchange, State.tell, clockOf_writeG, setClock_writeG]

/-- An accepted command that gives a value. -/
theorem gives_muCommand {i : Instr} {d : GReg} {w : W64} {lat : Nat} (hcur : s.cur < 1536) (hpc : s.pc ≠ 0xFFFC)
    (hi : exec i s = s.muCommand u bad k) (hfree : (s.pressAt (2 * (s.cur / 16) + u.toNat)).isBusy s.cycle = false)
    (hok : bad (s.pressAt (2 * (s.cur / 16) + u.toNat)) = false)
    (hk : k (2 * (s.cur / 16) + u.toNat) (s.pressAt (2 * (s.cur / 16) + u.toNat)) = s.gives d w lat) :
    Gives i s (s.exchange s.cur (1664 + (2 * (s.cur / 16) + u.toNat))) d w 0 lat :=
  gives_onStrand hcur hpc (by rw [hi, muCommand_accepted hfree hok, hk, State.gives, answered_ok, exchange_writeG]; rfl)

/-- A refused command raises the engine-command trap with nothing changed. -/
theorem traps_muCommand {i : Instr} (hcur : s.cur < 1536) (hpc : s.pc ≠ 0xFFFC) (hi : exec i s = s.muCommand u bad k)
    (h : (s.pressAt (2 * (s.cur / 16) + u.toNat)).isBusy s.cycle = true ∨ bad (s.pressAt (2 * (s.cur / 16) + u.toNat)) = true)
    (hin : s.bk.inTrap = false) : TrapsTo i s s 0x11 (s.word.zeroExtend 64) 0 false :=
  traps_onStrand hcur hpc hin (hi.trans (muCommand_refused h))

/-- An accepted command that completes; request and answer carry clocks (R58). -/
theorem completes_muCommand {i : Instr} {t : State} {lat : Nat} (hcur : s.cur < 1536) (hpc : s.pc ≠ 0xFFFC)
    (hi : exec i s = s.muCommand u bad k) (hfree : (s.pressAt (2 * (s.cur / 16) + u.toNat)).isBusy s.cycle = false)
    (hok : bad (s.pressAt (2 * (s.cur / 16) + u.toNat)) = false)
    (hk : k (2 * (s.cur / 16) + u.toNat) (s.pressAt (2 * (s.cur / 16) + u.toNat)) = .ok t lat) :
    Completes i s (t.exchange s.cur (1664 + (2 * (s.cur / 16) + u.toNat))) lat :=
  completes_onStrand hcur hpc (by rw [hi, muCommand_accepted hfree hok, hk, answered_ok])

end

theorem running_iff (x : Press) : x.running = true ↔ x.st = .run ∨ x.st = .stopping := by simp [Press.running]

/-! ### Reading a control register -/

/-- The machine that a read of control register `n` leaves outside its slot: registers 0, 1 and 15 are acquires (R64, R318). -/
theorem gives_muGetr {s : State} {d a : GReg} {u : BitVec 1} (hcur : s.cur < 1536) (hpc : s.pc ≠ 0xFFFC)
    (h : (s.readG a).toNat ≤ 27) :
    let n := (s.readG a).toNat
    let p := 2 * (s.cur / 16) + u.toNat
    let acq := n = 0 ∨ n = 1 ∨ n = 15
    let t := s.exchange s.cur (1664 + p)
    Gives (.muGetr d a u) s (if acq then t.acquire s.cur s.slot .cluster else t) d (BitVec.ofNat 64 ((s.pressAt p).readReg n)) 0
      (if acq then 10 else 8) := by
  intro n p acq t
  have hcost : acqCost s.cur .cluster = 2 := by rw [acqCost_strand _ hcur]; rfl
  apply gives_onStrand hcur hpc
  have hlat : (8 + if acq then 2 else 0) = if acq then 10 else 8 := apply_ite (8 + ·) acq 2 0
  rw [exec_muGetr, execMuGetr, if_neg (Nat.not_lt.mpr h), hcost, ← hlat]
  rfl

/-! ### Writing a control register -/

/-- A write of a register that strands can write, in a state of the press that allows it, with a valid EVT. -/
theorem completes_muSetr {s : State} {a b : GReg} {u : BitVec 1} (hcur : s.cur < 1536) (hpc : s.pc ≠ 0xFFFC) :
    let n := (s.readG a).toNat
    let p := 2 * (s.cur / 16) + u.toNat
    let x := s.pressAt p
    x.isBusy s.cycle = false → 4 ≤ n → n ≤ 23 → n ≠ 15 → (x.running = true → n = 5 ∨ n = 6 ∨ n = 7) →
    (n = 14 → s.evtOk (s.readG b).toNat = true) →
    Completes (.muSetr a b u) s ((s.setPress p (x.writeReg n (s.readG b))).exchange s.cur (1664 + p)) 8 := by
  intro n p x hfree h4 h23 h15 hrun hevt
  refine completes_muCommand hcur hpc (exec_muSetr s a b u) hfree ?_ rfl
  have hstopped : (stoppedReg n && x.running) = false := by
    cases hr : x.running with
    | false => exact Bool.and_false _
    | true => rcases hrun hr with h | h | h <;> simp [stoppedReg, h]
  have hevt' : (decide (n = 14) && !s.evtOk (s.readG b).toNat) = false := by
    by_cases h14 : n = 14
    · simp [hevt h14]
    · simp [h14]
  have hreg : readOnlyReg n = false := by simp [readOnlyReg, h15]; omega
  show (decide (27 < n) || readOnlyReg n || (stoppedReg n && x.running) || (decide (n = 14) && !s.evtOk (s.readG b).toNat)) = false
  rw [hstopped, hevt', hreg, decide_eq_false (by omega)]
  rfl

/-- What MU.SETR refuses (R316). -/
theorem muSetr_refused {s : State} {n : Nat} {v : W64} {x : Press} (h : n ≤ 3 ∨ n = 15 ∨ 24 ≤ n
      ∨ ((x.st = .run ∨ x.st = .stopping) ∧ n ≠ 5 ∧ n ≠ 6 ∧ n ≠ 7) ∨ (n = 14 ∧ s.evtOk v.toNat = false)) :
    (decide (27 < n) || readOnlyReg n || (stoppedReg n && x.running) || (decide (n = 14) && !s.evtOk v.toNat)) = true := by
  rcases h with h | h | h | ⟨hrun, h5, h6, h7⟩ | ⟨h14, hevt⟩
  · simp [readOnlyReg, h]
  · simp [readOnlyReg, h]
  · simp [readOnlyReg, h]
  · simp [stoppedReg, (running_iff x).mpr hrun, h5, h6, h7]
  · simp [h14, hevt]

/-- A press that runs takes PFS, AMAX and SATC at its next boundary (R316). -/
theorem writeReg_running {x : Press} {v : W64} (h : x.running = true) :
    x.writeReg 5 v = { x with pend := x.pend ++ [(x.beat + 1, .setPfs (v.truncate 32))] }
    ∧ x.writeReg 6 v = { x with pend := x.pend ++ [(x.beat + 1, .setAmax (v.truncate 32))] }
    ∧ x.writeReg 7 v = { x with pend := x.pend ++ [(x.beat + 1, .setSatc (v.truncate 32))] } :=
  ⟨if_pos h, if_pos h, if_pos h⟩

/-- A press that does not run takes them at once. -/
theorem writeReg_stopped {x : Press} {v : W64} (h : x.running = false) :
    x.writeReg 5 v = { x with pfs := x.pfs &&& ~~~(v.truncate 32) }
    ∧ x.writeReg 6 v = { x with amax := v.truncate 32 } ∧ x.writeReg 7 v = { x with satc := v.truncate 32 } :=
  ⟨if_neg (Bool.eq_false_iff.mp h), if_neg (Bool.eq_false_iff.mp h), if_neg (Bool.eq_false_iff.mp h)⟩

/-- The thresholds, numbers 8 to 12. -/
theorem writeReg_threshold {x : Press} {n : Nat} {v : W64} (h8 : 8 ≤ n) (h12 : n ≤ 12) :
    x.writeReg n v = { x with th := mset 0 x.th (n - 7) (v.truncate 32) } := by
  interval_cases n <;> rfl

/-- The drop counters, numbers 16 to 23. -/
theorem writeReg_dropc {x : Press} {n : Nat} {v : W64} (h16 : 16 ≤ n) (h23 : n ≤ 23) :
    x.writeReg n v = { x with dropc := mset 0 x.dropc (n - 16) (v.truncate 32) } := by
  interval_cases n <;> rfl

theorem readReg_threshold {x : Press} {n : Nat} (h8 : 8 ≤ n) (h12 : n ≤ 12) : x.readReg n = (mget 0 x.th (n - 7)).toNat := by
  interval_cases n <;> rfl

theorem readReg_dropc {x : Press} {n : Nat} (h16 : 16 ≤ n) (h23 : n ≤ 23) : x.readReg n = (mget 0 x.dropc (n - 16)).toNat := by
  interval_cases n <;> rfl

/-- ROT: the size of the region by its code, and RRB if it lies inside (R301). -/
theorem writeRot_eq (x : Press) (v : Nat) : x.writeRot v =
    { x with rsize := BitVec.ofNat 2 (v % 4)
             rrb := if v / 2 ^ 8 % 32 < (if v % 4 = 0 then 0 else 4 * 2 ^ (v % 4)) then BitVec.ofNat 5 (v / 2 ^ 8 % 32) else x.rrb } := by
  have hsize : nf v 0 2 = v % 4 := by simp [nf]
  have hrot : ({ x with rsize := BitVec.ofNat 2 (v % 4) } : Press).rot = if v % 4 = 0 then 0 else 4 * 2 ^ (v % 4) := by
    have hlt : v % 4 < 4 := Nat.mod_lt _ (by decide)
    generalize v % 4 = c at hlt
    interval_cases c <;> rfl
  have hplace : nf v 8 5 = v / 2 ^ 8 % 32 := rfl
  simp only [Press.writeRot, hsize, hrot, hplace]
  by_cases h : v / 2 ^ 8 % 32 < (if v % 4 = 0 then 0 else 4 * 2 ^ (v % 4))
  · rw [if_pos h, if_pos h]
  · rw [if_neg h, if_neg h]

/-! ### Scalars -/

theorem muScalar_refused {n : Nat} {x : Press} (h : 31 < n ∨ x.st = .run ∨ x.st = .stopping) : (decide (31 < n) || x.running) = true := by
  rcases h with h | h
  · simp [h]
  · simp [(running_iff x).mpr h]

/-- Settles O36: the reads are one completion whose value is the register; the writes are one completion whose press is
`Press.writeReg`, and what they refuse is one condition. -/
theorem pressRegisters : Obligations.PressRegisters := by
  unfold Obligations.PressRegisters
  intro s d a b u hcur hpc p x n v v32 sees puts runs traps
  have hword : ∀ w : W32, BitVec.ofNat 64 w.toNat = w.zeroExtend 64 := fun w => BitVec.ofNat_toNat 64 w
  have sees_reg : ∀ w : W64, n ≤ 27 → BitVec.ofNat 64 (x.readReg n) = w → sees w := by
    rintro w hn rfl
    exact gives_muGetr hcur hpc hn
  refine ⟨fun hn => sees_reg _ hn rfl, ?pc, ?fcause, ?fpc, ?pfs, ?amax, ?satc, ?th, ?evt, ?cyc, ?dropc, ?noReg, ?stopped, ?running,
    ?refused, ?scalars⟩
  case pc => exact fun hn => sees_reg _ (by omega) (by rw [hn]; rfl)
  case fcause => exact fun hn => sees_reg _ (by omega) (by rw [hn]; exact hword _)
  case fpc => exact fun hn => sees_reg _ (by omega) (by rw [hn]; exact hword _)
  case pfs => exact fun hn => sees_reg _ (by omega) (by rw [hn]; exact hword _)
  case amax => exact fun hn => sees_reg _ (by omega) (by rw [hn]; exact hword _)
  case satc => exact fun hn => sees_reg _ (by omega) (by rw [hn]; exact hword _)
  case th => exact fun h8 h12 => sees_reg _ (by omega) (by rw [readReg_threshold h8 h12]; exact hword _)
  case evt => exact fun hn => sees_reg _ (by omega) (by rw [hn]; exact (BitVec.ofNat_toNat 64 _).trans (BitVec.setWidth_eq _))
  case cyc => exact fun hn => sees_reg _ (by omega) (by rw [hn]; exact (BitVec.ofNat_toNat 64 _).trans (BitVec.setWidth_eq _))
  case dropc => exact fun h16 h23 => sees_reg _ (by omega) (by rw [readReg_dropc h16 h23]; exact hword _)
  case noReg => exact fun hn hin => traps_onStrand hcur hpc hin ((exec_muGetr s d a u).trans (congrArg (onStrand s) (if_pos hn)))
  case stopped =>
    intro hfree hruns
    have hrun : x.running = false := Bool.eq_false_iff.mpr (fun h => hruns ((running_iff x).mp h))
    have puts_reg : ∀ y : Press, 4 ≤ n → n ≤ 23 → n ≠ 15 → (n = 14 → s.evtOk v.toNat = true) → x.writeReg n v = y → puts y := by
      rintro y h4 h23 h15 hevt rfl
      exact completes_muSetr hcur hpc hfree h4 h23 h15 (fun h => absurd h (Bool.eq_false_iff.mp hrun)) hevt
    obtain ⟨hpfs, hamax, hsatc⟩ := writeReg_stopped (v := v) hrun
    refine ⟨?pfs, ?nfmt, ?rot, ?amax, ?satc, ?th, ?evt, ?dropc, ?scalar⟩
    case pfs => exact fun hn => puts_reg _ (by omega) (by omega) (by omega) (by omega) (by rw [hn]; exact hpfs)
    case nfmt => exact fun hn => puts_reg _ (by omega) (by omega) (by omega) (by omega) (by rw [hn]; rfl)
    case rot => exact fun hn => puts_reg _ (by omega) (by omega) (by omega) (by omega) (by rw [hn]; exact writeRot_eq x v.toNat)
    case amax => exact fun hn => puts_reg _ (by omega) (by omega) (by omega) (by omega) (by rw [hn]; exact hamax)
    case satc => exact fun hn => puts_reg _ (by omega) (by omega) (by omega) (by omega) (by rw [hn]; exact hsatc)
    case th => exact fun h8 h12 => puts_reg _ (by omega) (by omega) (by omega) (by omega) (writeReg_threshold h8 h12)
    case evt => exact fun hn hok => puts_reg _ (by omega) (by omega) (by omega) (fun _ => hok) (by rw [hn]; rfl)
    case dropc => exact fun h16 h23 => puts_reg _ (by omega) (by omega) (by omega) (by omega) (writeReg_dropc h16 h23)
    case scalar =>
      intro h31
      have hok : (decide (31 < n) || x.running) = false := by simp [hrun, h31]
      refine ⟨?_, completes_muCommand hcur hpc (exec_muSets s a b u) hfree hok rfl⟩
      exact gives_muCommand hcur hpc (exec_muGets s d a u) hfree hok rfl
  case running =>
    intro hfree hruns later
    have hrun := (running_iff x).mpr hruns
    have puts_reg : ∀ y : Press, n = 5 ∨ n = 6 ∨ n = 7 → x.writeReg n v = y → puts y := by
      rintro y hn rfl
      exact completes_muSetr hcur hpc hfree (by omega) (by omega) (by omega) (fun _ => hn) (by omega)
    obtain ⟨hpfs, hamax, hsatc⟩ := writeReg_running (v := v) hrun
    exact ⟨fun hn => puts_reg _ (by omega) (by rw [hn]; exact hpfs), fun hn => puts_reg _ (by omega) (by rw [hn]; exact hamax),
      fun hn => puts_reg _ (by omega) (by rw [hn]; exact hsatc)⟩
  case refused =>
    intro h hin
    refine traps_muCommand hcur hpc (exec_muSetr s a b u) ?_ hin
    rcases h with h | h | h | hbusy | h | h
    · exact .inr (muSetr_refused (.inl h))
    · exact .inr (muSetr_refused (.inr (.inl h)))
    · exact .inr (muSetr_refused (.inr (.inr (.inl h))))
    · exact .inl hbusy
    · exact .inr (muSetr_refused (.inr (.inr (.inr (.inl h)))))
    · exact .inr (muSetr_refused (.inr (.inr (.inr (.inr h)))))
  case scalars =>
    intro h
    have hbad : x.isBusy s.cycle = true ∨ (decide (31 < n) || x.running) = true := by
      rcases h with h | h | h
      · exact .inr (muScalar_refused (.inl h))
      · exact .inr (muScalar_refused (.inr h))
      · exact .inl h
    exact ⟨traps_muCommand hcur hpc (exec_muGets s d a u) hbad, traps_muCommand hcur hpc (exec_muSets s a b u) hbad⟩

end Sys2Proof.Machine
end

section
/-! PROOFS. The commands that start, stop, reset and load presses (R314, R318 to R320, R323). -/
namespace Sys2Proof.Machine

/-! ### The commands -/

section
variable (s : State) (d a b : GReg) (u : BitVec 1)

theorem exec_muStart : exec (.muStart a u) s = s.muCommand u
    (fun x => decide (x.st ≠ .stopped) || !x.held.isEmpty || decide (0x10000 ≤ (s.readG a).toNat) || decide ((s.readG a).toNat % 4 ≠ 0))
    (fun p x => .ok (s.setPress p ({ x with pc := (s.readG a).toNat }.enterRun s.cycle)) 8) := rfl

theorem exec_muResume : exec (.muResume u) s = s.muCommand u (fun x => decide (x.st ≠ .stopped))
    (fun p x => .ok (s.setPress p (x.enterRun s.cycle)) 8) := rfl

theorem exec_muReset : exec (.muReset u) s = s.muCommand u Press.running (fun p x =>
    .ok ((s.setPress p (x.wiped p)).releaseAll x.handles).1 (8 + 4 * ((s.setPress p (x.wiped p)).releaseAll x.handles).2)) := rfl

theorem exec_muImld : exec (.muImld a b u) s = execMuImld a b u s := rfl
theorem exec_muSave : exec (.muSave a b u) s = s.muImage a b u true := rfl
theorem exec_muLoad : exec (.muLoad a b u) s = s.muImage a b u false := rfl

end

/-- The high bits of a doubleword. -/
theorem nf_high (v : W64) {lo n : Nat} (h : lo + n = 64) : nf v.toNat lo n = v.toNat / 2 ^ lo :=
  Nat.mod_eq_of_lt (Nat.div_lt_of_lt_mul (by rw [← Nat.pow_add, h]; exact v.isLt))

theorem nf_high_eq_zero (v : W64) {lo n : Nat} (h : lo + n = 64) : nf v.toNat lo n = 0 ↔ v.toNat < 2 ^ lo := by
  rw [nf_high v h, Nat.div_eq_zero_iff_lt (Nat.two_pow_pos lo)]

theorem nf_low (v n : Nat) : nf v 0 n = v % 2 ^ n := by simp [nf]

/-! ### MU.STOP and MU.RESET -/

theorem requestStop_run {x : Press} (h : x.st = .run) :
    x.requestStop = { x with st := .stopping, nextAt := x.requestStop.nextAt } := by
  simp [Press.requestStop, h]

theorem requestStop_not_run {x : Press} (h : x.st ≠ .run) : x.requestStop = x := if_neg h

/-- `t` differs from `s` in clusters only. -/
structure ClustersOnly (s t : State) : Prop where
  eq : t = { s with clusters := t.clusters }

theorem ClustersOnly.trans {s t u : State} (h : ClustersOnly s t) (g : ClustersOnly t u) : ClustersOnly s u :=
  ⟨by rw [g.eq, h.eq]⟩

theorem ClustersOnly.cores {s t : State} (h : ClustersOnly s t) : t.cores = s.cores := by rw [h.eq]
theorem ClustersOnly.mem {s t : State} (h : ClustersOnly s t) : t.mem = s.mem := by rw [h.eq]
theorem ClustersOnly.pressAt {s t : State} (h : ClustersOnly s t) (p : Nat) : t.pressAt p = s.pressAt p := by rw [h.eq]; rfl

theorem clustersOnly_releaseTile (s : State) (h : W32) : ClustersOnly s (s.releaseTile h) := by
  unfold State.releaseTile
  dsimp only
  split <;> exact ⟨rfl⟩

theorem clustersOnly_releaseAll (s : State) (hs : List W32) : ClustersOnly s (s.releaseAll hs).1 := by
  induction hs generalizing s with
  | nil => exact ⟨rfl⟩
  | cons h hs ih => exact (clustersOnly_releaseTile s h).trans (ih _)

/-- The word of an entry to STOPPED by MU.RESET (R317). -/
theorem stopWord_reset (c : Nat) (u : BitVec 1) :
    stopWord (2 * c + u.toNat) 0 0 = BitVec.ofNat 64 ((2 * c + u.toNat) % 2 * 2 ^ 8 + c % 2 ^ 7 * 2 ^ 9) := by
  have hc : (2 * c + u.toNat) / 2 = c := by omega
  simp only [stopWord, pressCluster, hc, w64]
  congr 1
  omega

/-! ### MU.IMLD -/

/-- The operands of MU.IMLD keep to their limits. -/
def imldFits (v src dst n : Nat) : Prop :=
  v < 2 ^ 32 ∧ src % 4 = 0 ∧ dst % 4 = 0 ∧ n % 4 = 0 ∧ 0 < n ∧ src + n ≤ 0x10000 ∧ dst + n ≤ 0x10000

/-- What MU.IMLD refuses (R319). -/
theorem muImld_refused_iff (x : Press) (v : W64) (src dst n : Nat) :
    (x.running || decide (nf v.toNat 32 32 ≠ 0) || decide (src % 4 ≠ 0) || decide (dst % 4 ≠ 0) || decide (n % 4 ≠ 0)
      || decide (n = 0) || decide (0x10000 < src + n) || decide (0x10000 < dst + n)) = true ↔
    (x.st = .run ∨ x.st = .stopping) ∨ ¬ imldFits v.toNat src dst n := by
  simp only [imldFits, Bool.or_eq_true, decide_eq_true_eq, running_iff, ne_eq, nf_high_eq_zero v (show 32 + 32 = 64 from rfl)]
  by_cases hrun : x.st = .run ∨ x.st = .stopping
  · simp [hrun]
  · simp only [hrun, false_or]
    omega

section
variable {s : State} {a b : GReg} {u : BitVec 1}

/-- The words that MU.IMLD copies, when no source granule is in error. -/
theorem completes_muImld (hcur : s.cur < 1536) (hpc : s.pc ≠ 0xFFFC) :
    let p := 2 * (s.cur / 16) + u.toNat
    let x := s.pressAt p
    let n := (s.readG b).toNat
    let src := (s.readG a).toNat % 2 ^ 16
    let dst := (s.readG a).toNat / 2 ^ 16 % 2 ^ 16
    let t := s.landFor s.cur (.localMem s.cur)
    x.isBusy s.cycle = false → ¬ (x.st = .run ∨ x.st = .stopping) →
    imldFits (s.readG a).toNat src dst n →
    (t.bad (localBase s.cur + src) n = false →
      Completes (.muImld a b u) s (((t.put (imemBase p + dst) (t.bytesAt (localBase s.cur + src) n)).setPress p
        { x with busy := some (.imld (s.cycle + (16 + (n + 15) / 16))) }).exchange s.cur (1664 + p)) (16 + (n + 15) / 16))
    ∧ (t.bad (localBase s.cur + src) n = true → s.bk.inTrap = false →
      TrapsTo (.muImld a b u) s (t.memError (localBase s.cur + src)) 0x14 (BitVec.ofNat 64 src) 0 false) := by
  intro p x n src dst t hfree hrun hfits
  have hok := Bool.eq_false_iff.mpr (fun h => ((muImld_refused_iff x (s.readG a) src dst n).mp h).elim hrun (fun hno => hno hfits))
  have hi := exec_muImld s a b u
  simp only [execMuImld, nf_low] at hi
  refine ⟨fun hbad => completes_muCommand hcur hpc hi hfree hok (if_neg (Bool.eq_false_iff.mp hbad)), fun hbad hin => ?_⟩
  have hin' : (t.memError (localBase s.cur + src)).bk.inTrap = false := by
    rwa [(memOnly_memError t _).bk, landFor_bk]
  exact trapsIn_onStrand hcur hpc hin' ((hi.trans (muCommand_accepted hfree hok)).trans
    (congrArg (fun k => onStrand s (Done.answered _ k)) (if_pos hbad)))

/-- MU.IMLD is refused by a press that is busy or runs, and with operands outside its limits. -/
theorem traps_muImld (hcur : s.cur < 1536) (hpc : s.pc ≠ 0xFFFC) :
    let x := s.pressAt (2 * (s.cur / 16) + u.toNat)
    let n := (s.readG b).toNat
    let src := (s.readG a).toNat % 2 ^ 16
    let dst := (s.readG a).toNat / 2 ^ 16 % 2 ^ 16
    x.isBusy s.cycle = true ∨ (x.st = .run ∨ x.st = .stopping) ∨ ¬ imldFits (s.readG a).toNat src dst n →
    s.bk.inTrap = false →
    TrapsTo (.muImld a b u) s s 0x11 (s.word.zeroExtend 64) 0 false := by
  intro x n src dst h
  have hi := exec_muImld s a b u
  simp only [execMuImld, nf_low] at hi
  exact traps_muCommand hcur hpc hi (h.imp_right (muImld_refused_iff x (s.readG a) src dst n).mpr)

end

/-! ### MU.SAVE and MU.LOAD -/

section
variable {s : State} {a b : GReg} {u : BitVec 1} {save : Bool} {i : Instr}

/-- MU.SAVE or MU.LOAD of a STOPPED press, with a descriptor and nothing to release, begins its image (R323). -/
theorem completes_muImage (hcur : s.cur < 1536) (hpc : s.pc ≠ 0xFFFC) (hi : exec i s = s.muImage a b u save) {e : TensorDesc}
    (he : s.latchedImage a b save = some e) (hrel : Released s .device) :
    let p := 2 * (s.cur / 16) + u.toNat
    let x := s.pressAt p
    let v := (s.readG a).toNat
    let job := if save then PressBusy.save s.cur (v % 2 ^ 6) e.pages (e.vbase + v / 2 ^ 16) (s.readG b)
      else .load s.cur (v % 2 ^ 6) e.pages (e.vbase + v / 2 ^ 16) (s.readG b)
    x.isBusy s.cycle = false → x.st = .stopped →
    Completes i s ((s.setPress p { x with busy := some job }).exchange s.cur (1664 + p)) 8 := by
  intro p x v job hfree hst
  unfold State.muImage at hi
  refine completes_muCommand hcur hpc hi hfree (by simp [hst, he, p, x]) ?_
  simp only [he, releasing_released hrel, nf_high (s.readG a) (show 16 + 48 = 64 from rfl), nf_low]
  rfl

/-- They are refused where the press is busy or not STOPPED, or no descriptor passes the checks. -/
theorem traps_muImage (hcur : s.cur < 1536) (hpc : s.pc ≠ 0xFFFC) (hi : exec i s = s.muImage a b u save) :
    let x := s.pressAt (2 * (s.cur / 16) + u.toNat)
    x.isBusy s.cycle = true ∨ x.st ≠ .stopped ∨ s.latchedImage a b save = none → s.bk.inTrap = false →
    TrapsTo i s s 0x11 (s.word.zeroExtend 64) 0 false := by
  intro x h
  unfold State.muImage at hi
  refine traps_muCommand hcur hpc hi ?_
  simpa using h

end

/-- Settles O37: each command is accepted or refused by the condition of `State.muCommand`, and then does one thing. -/
theorem pressCommands : Obligations.PressCommands := by
  unfold Obligations.PressCommands
  intro s d a b u hcur hpc p x v n src dst enters traps free
  have hbusy : ¬ free → x.isBusy s.cycle = true := Bool.eq_true_of_not_eq_false
  refine ⟨?start, ?startRefused, ?resume, ?resumeRefused, ?stop, ?reset, ?resetRefused, ?imld, ?imldRefused, ?image⟩
  case start =>
    intro hfree hst hheld hv h4
    exact completes_muCommand hcur hpc (exec_muStart s a u) hfree (by simp [hst, hheld, hv, h4, x, p, v]) rfl
  case startRefused =>
    intro h
    refine traps_muCommand hcur hpc (exec_muStart s a u) ?_
    rcases h with h | h | h | h | h
    · exact .inl (hbusy h)
    · exact .inr (by simp [h, x, p])
    · exact .inr (by simp [h, x, p])
    · exact .inr (by simp [h, v])
    · exact .inr (by simp [h, v])
  case resume =>
    intro hfree hst
    exact completes_muCommand hcur hpc (exec_muResume s u) hfree (by simp [hst, x, p]) rfl
  case resumeRefused =>
    intro h
    refine ⟨traps_muCommand hcur hpc (exec_muResume s u) (h.imp hbusy decide_eq_true), ?_, ?_⟩
    · exact traps_muImage hcur hpc (exec_muSave s a b u) (h.imp hbusy .inl)
    · exact traps_muImage hcur hpc (exec_muLoad s a b u) (h.imp hbusy .inl)
  case stop =>
    exact ⟨x.requestStop, gives_onStrand hcur hpc rfl, requestStop_run, requestStop_not_run⟩
  case reset =>
    intro hfree hst
    have hrun : x.running = false := by rcases hst with h | h <;> simp [Press.running, h]
    have hreset := clustersOnly_releaseAll (s.setPress p (x.wiped p)) x.handles
    have hpress : ((s.setPress p (x.wiped p)).releaseAll x.handles).1.pressAt p = x.wiped p := by
      rw [hreset.pressAt, pressAt_setPress]
    refine ⟨_, _, completes_muCommand hcur hpc (exec_muReset s u) hfree hrun rfl, ?_⟩
    rw [hpress, ← stopWord_reset]
    exact ⟨rfl, rfl, rfl, rfl, rfl, rfl, rfl, rfl, rfl, rfl, rfl, hreset.cores, hreset.mem⟩
  case resetRefused =>
    intro h
    have hrun : x.isBusy s.cycle = true ∨ x.running = true := h.imp hbusy (running_iff x).mpr
    exact ⟨traps_muCommand hcur hpc (exec_muReset s u) hrun, traps_muImld hcur hpc (h.imp hbusy .inl)⟩
  case imld =>
    intro t lat hfree hst hv hsrc hdst hn h0 hs hd hbad
    have hrun : ¬ (x.st = .run ∨ x.st = .stopping) := by rcases hst with h | h <;> simp [h]
    exact (completes_muImld hcur hpc hfree hrun ⟨hv, hsrc, hdst, hn, h0, hs, hd⟩).1 hbad
  case imldRefused =>
    intro t fits
    refine ⟨fun hfits => ?_, fun hfree hst hfits hbad hin => ?_⟩
    · exact traps_muImld hcur hpc (.inr (.inr hfits))
    · have hrun : ¬ (x.st = .run ∨ x.st = .stopping) := by rcases hst with h | h <;> simp [h]
      exact (completes_muImld hcur hpc hfree hrun hfits).2 hbad hin
  case image =>
    intro hfree hst hrel va desc
    exact ⟨fun e he => completes_muImage hcur hpc (exec_muSave s a b u) he hrel hfree hst,
      fun e he => completes_muImage hcur hpc (exec_muLoad s a b u) he hrel hfree hst,
      fun h => traps_muImage hcur hpc (exec_muSave s a b u) (.inr (.inr h)),
      fun h => traps_muImage hcur hpc (exec_muLoad s a b u) (.inr (.inr h))⟩

end Sys2Proof.Machine
end

section
/-! SUPPORT. An instruction that ends in another slot than the running one (R142). -/
namespace Sys2Proof.Machine

/-- The slot of an instruction that ends with a value, seen from outside. -/
theorem retire_writeG_seenFrom (s : State) (u i : Nat) (d : GReg) (v : W64) (lat : Nat) :
    ((s.seenFrom u i).writeG d v).retire lat =
      (s.setSlot u i ((s.slotOf u i).ends d v (s.cycle + lat))).seenFrom u i := by
  have hslot : ∀ x : Slot, ({ (x.updActive fun b => b.writeG d v).updActive (fun b => { b with pc := b.pc + 4 }) with
      fetch := (x.updActive fun b => b.writeG d v).fetch.tail, readyAt := s.cycle + lat, drained := false, clearedLine := none
      latched := none, wait := .none, st := .run } : Slot) = x.ends d v (s.cycle + lat) := by
    intro x
    simp only [updActive_updActive, fetch_updActive, writeG_pc, Slot.ends]
  unfold State.writeG
  rw [retire_updBk, updMe_eq]
  exact congrArg (fun x => (s.setSlot u i x).seenFrom u i) (hslot (s.slotOf u i))

end Sys2Proof.Machine
end

section
/-! PROOFS. Commands of strand cores to lookup cores (R382 to R385). -/
namespace Sys2Proof.Machine

/-! ### Operands -/

section
variable (s : State) (d a b : GReg) (n : BitVec 3)

theorem exec_lkPost : exec (.lkPost d a b) s = execLkPost d a b s := rfl
theorem exec_lkStat : exec (.lkStat d a n) s = execLkStat d a n s := rfl
theorem exec_lkImld : exec (.lkImld a b) s = execLkImld a b s := rfl
theorem exec_lkRun : exec (.lkRun a b) s = execLkRun a b s := rfl
theorem exec_lkHalt : exec (.lkHalt d a) s = execLkHalt d a s := rfl

end

theorem lookTarget_some {v : W64} (h : v.toNat < 128) : lookTarget v = some (1536 + v.toNat % 128) := by
  rw [lookTarget, if_pos h, Nat.mod_eq_of_lt h]

theorem lookTarget_none {v : W64} (h : 128 ≤ v.toNat) : lookTarget v = none := if_neg (Nat.not_lt.mpr h)

theorem ownBase_lookup (l : Nat) : ownBase (1536 + l) = storeBase l := by simp [ownBase, isLookup]

/-! ### LK.POST and LK.STAT -/

section
variable {s : State} {d a b : GReg} {n : BitVec 3}

/-- LK.POST refuses bits that no lookup core and no queue has (R385). -/
theorem lkPost_refused_iff (v : W64) : (nb v.toNat 7 ∨ nf v.toNat 10 54 ≠ 0) ↔ 2 ^ 10 ≤ v.toNat ∨ v.toNat / 2 ^ 7 % 2 = 1 := by
  rw [ne_eq, nf_high_eq_zero v rfl, nb, decide_eq_true_eq]
  omega

theorem lkPost_core (v : Nat) : nf v 0 7 = v % 128 := nf_low v 7
theorem lkPost_queue (v : Nat) : nf v 8 2 = v / 2 ^ 8 % 4 := rfl

section
variable (hok : ¬ (2 ^ 10 ≤ (s.readG a).toNat ∨ (s.readG a).toNat / 2 ^ 7 % 2 = 1)) (hrel : Released s .device)
include hok hrel

theorem exec_lkPost_room
    (h : (mget [] (s.core (1536 + (s.readG a).toNat % 128)).eq ((s.readG a).toNat / 2 ^ 8 % 4)).length < 16) :
    exec (.lkPost d a b) s = onStrand s (((s.updCore (1536 + (s.readG a).toNat % 128) (fun c => { c with
      eq := mset [] c.eq ((s.readG a).toNat / 2 ^ 8 % 4)
        (mget [] (s.core (1536 + (s.readG a).toNat % 128)).eq ((s.readG a).toNat / 2 ^ 8 % 4) ++ [⟨s.readG b, .device⟩]) })).exchange
      s.cur (1536 + (s.readG a).toNat % 128)).gives d 1 16) := by
  rw [exec_lkPost, execLkPost, if_neg (mt (lkPost_refused_iff _).mp hok), releasing_released hrel, lkPost_core, lkPost_queue]
  simp only [postEq_room _ _ h]

theorem exec_lkPost_full
    (h : 16 ≤ (mget [] (s.core (1536 + (s.readG a).toNat % 128)).eq ((s.readG a).toNat / 2 ^ 8 % 4)).length) :
    exec (.lkPost d a b) s = onStrand s ((s.exchange s.cur (1536 + (s.readG a).toNat % 128)).gives d 0 16) := by
  rw [exec_lkPost, execLkPost, if_neg (mt (lkPost_refused_iff _).mp hok), releasing_released hrel, lkPost_core, lkPost_queue]
  simp only [postEq_full _ _ h]

end

theorem exec_lkStat_accepted (ha : (s.readG a).toNat < 128) (hn : n.toNat ≤ 4) :
    exec (.lkStat d a n) s = onStrand s (((s.exchange s.cur (1536 + (s.readG a).toNat % 128)).acquire s.cur s.slot .device).gives d
      (BitVec.ofNat 64 ((s.core (1536 + (s.readG a).toNat % 128)).lookReg n.toNat)) (16 + acqCost s.cur .device)) := by
  rw [exec_lkStat, execLkStat, lookTarget_some ha]
  exact congrArg (onStrand s) (if_neg (Nat.not_lt.mpr hn))

theorem exec_lkStat_refused (h : 128 ≤ (s.readG a).toNat ∨ 4 < n.toNat) : exec (.lkStat d a n) s = onStrand s (.trap s.command) := by
  rw [exec_lkStat, execLkStat]
  by_cases ha : (s.readG a).toNat < 128
  · rw [lookTarget_some ha]
    exact congrArg (onStrand s) (if_pos (h.resolve_left (Nat.not_le.mpr ha)))
  · rw [lookTarget_none (Nat.not_lt.mp ha)]

end

/-! ### LK.IMLD and LK.RUN -/

section
variable {s : State} {a b : GReg}

theorem needSuper_super (hsup : s.super = true) (k : Done) : s.needSuper k = k := if_pos hsup

/-- LK.IMLD finds a core that is not running, and its operands keep to their limits. -/
def lkImldFits (v : Nat) (run : Bool) (src dst n : Nat) : Prop :=
  v / 2 ^ 31 % 2 = 0 ∧ v < 2 ^ 39 ∧ run = false ∧ src % 4 = 0 ∧ dst % 4 = 0 ∧ n % 4 = 0 ∧ 0 < n ∧ src + n ≤ 0x10000
    ∧ dst + n ≤ 0x8000

/-- What LK.IMLD refuses (R382, R384). -/
theorem lkImld_refused_iff (v : W64) (run : Bool) (src dst n : Nat) :
    (nb v.toNat 31 ∨ nf v.toNat 39 25 ≠ 0 ∨ run = true ∨ src % 4 ≠ 0 ∨ dst % 4 ≠ 0 ∨ n % 4 ≠ 0 ∨ n = 0 ∨ 0x10000 < src + n
      ∨ 0x8000 < dst + n) ↔
    ¬ lkImldFits v.toNat run src dst n := by
  rw [lkImldFits, ne_eq, nf_high_eq_zero v rfl, nb, decide_eq_true_eq]
  cases run
  · simp only [Bool.false_eq_true, false_or, true_and]
    omega
  · simp

/-- LK.IMLD at SUPER, by what its operands and its source are. -/
theorem exec_lkImld_super (hsup : s.super = true) :
    let v := (s.readG a).toNat
    let n := (s.readG b).toNat
    let m := 1536 + v / 2 ^ 32 % 128
    let src := v % 2 ^ 16
    let dst := v / 2 ^ 16 % 2 ^ 15
    let t := s.landFor s.cur (.localMem s.cur)
    let fits := lkImldFits v (s.core m).look.run src dst n
    (¬ fits → exec (.lkImld a b) s = onStrand s (.trap s.command))
    ∧ (fits → t.bad (localBase s.cur + src) n = true → exec (.lkImld a b) s =
        onStrand s (.trapIn (t.memError (localBase s.cur + src)) { code := 0x14, eval := BitVec.ofNat 64 src }))
    ∧ (fits → t.bad (localBase s.cur + src) n = false → exec (.lkImld a b) s = onStrand s
        (.ok ((t.put (storeBase (m - 1536) + dst) (t.bytesAt (localBase s.cur + src) n)).exchange s.cur m) (24 + (n + 15) / 16))) := by
  intro v n m src dst t fits
  have hi := exec_lkImld s a b
  simp only [execLkImld, needSuper_super hsup, nf_low] at hi
  have hiff := lkImld_refused_iff (s.readG a) (s.core m).look.run src dst n
  have hbase : storeBase (m - 1536) = ownBase m := by rw [ownBase_lookup, Nat.add_sub_cancel_left]
  refine ⟨fun h => ?_, fun h hbad => ?_, fun h hbad => ?_⟩
  · exact hi.trans (congrArg (onStrand s) (if_pos (hiff.mpr h)))
  · exact hi.trans (congrArg (onStrand s) ((if_neg (fun hno => hiff.mp hno h)).trans (if_pos hbad)))
  · rw [hbase]
    exact hi.trans (congrArg (onStrand s) ((if_neg (fun hno => hiff.mp hno h)).trans (if_neg (Bool.eq_false_iff.mp hbad))))

/-- LK.RUN at SUPER starts a core that is not running. -/
theorem exec_lkRun_accepted (hsup : s.super = true) (ha : (s.readG a).toNat < 128) (hb : (s.readG b).toNat < 0x8000)
    (h4 : (s.readG b).toNat % 4 = 0) (hrun : (s.core (1536 + (s.readG a).toNat % 128)).look.run = false) :
    exec (.lkRun a b) s = onStrand s (.ok ((s.lookRun (1536 + (s.readG a).toNat % 128) ((s.readG b).truncate 16)).exchange
      s.cur (1536 + (s.readG a).toNat % 128)) 16) := by
  have hok : ¬ (nf (s.readG b).toNat 15 49 ≠ 0 ∨ (s.readG b).toNat % 4 ≠ 0
      ∨ (s.look (1536 + (s.readG a).toNat % 128)).run = true) := by
    rw [ne_eq, nf_high_eq_zero _ rfl, State.look, hrun]
    simp [hb, h4]
  rw [exec_lkRun, execLkRun, needSuper_super hsup, lookTarget_some ha]
  exact congrArg (onStrand s) (if_neg hok)

theorem exec_lkRun_refused (hsup : s.super = true) (h : 128 ≤ (s.readG a).toNat ∨ 0x8000 ≤ (s.readG b).toNat
      ∨ (s.readG b).toNat % 4 ≠ 0 ∨ (s.core (1536 + (s.readG a).toNat % 128)).look.run = true) :
    exec (.lkRun a b) s = onStrand s (.trap s.command) := by
  rw [exec_lkRun, execLkRun, needSuper_super hsup]
  by_cases ha : (s.readG a).toNat < 128
  · rw [lookTarget_some ha]
    refine congrArg (onStrand s) (if_pos ?_)
    rw [ne_eq, nf_high_eq_zero _ rfl]
    exact (h.resolve_left (Nat.not_le.mpr ha)).imp_left Nat.not_lt.mpr
  · rw [lookTarget_none (Nat.not_lt.mp ha)]

end

/-! ### LK.HALT (R177, R384) -/

/-- `t` differs from `s` in core `u` only, and its queues are those of `s`. -/
structure HaltOnly (u : Nat) (s t : State) : Prop where
  eq : t = s.setCore u (t.core u)
  queues : (t.core u).eq = (s.core u).eq

theorem HaltOnly.trans {u : Nat} {s t v : State} (h : HaltOnly u s t) (g : HaltOnly u t v) : HaltOnly u s v := by
  refine ⟨?_, g.queues.trans h.queues⟩
  have hv := g.eq
  rw [h.eq, setCore_setCore] at hv
  exact hv

theorem haltOnly_updCore (s : State) (u : Nat) {f : Core → Core} (h : (f (s.core u)).eq = (s.core u).eq) :
    HaltOnly u s (s.updCore u f) :=
  ⟨by rw [State.updCore, core_setCore], by rw [State.updCore, core_setCore, h]⟩

theorem haltOnly_setSlot (s : State) (u i : Nat) (x : Slot) : HaltOnly u s (s.setSlot u i x) := haltOnly_updCore s u rfl

theorem HaltOnly.stopSlot {u : Nat} {s t : State} (h : HaltOnly u s t) (i : Nat) : HaltOnly u s (t.stopSlot u i) := by
  unfold State.stopSlot
  dsimp only
  split
  · next d cl b _ =>
    rw [retire_writeG_seenFrom]
    exact h.trans (haltOnly_setSlot t u i _)
  · exact h
  · exact h
  · exact h
  · exact h
  · exact h
  · exact h.trans (haltOnly_setSlot t u i _)
  · exact h.trans (haltOnly_setSlot t u i _)
  · exact h.trans (haltOnly_setSlot t u i _)

theorem haltOnly_haltCore (s : State) (u : Nat) : HaltOnly u s (s.haltCore u) := by
  unfold State.haltCore
  have hfold : ∀ (l : Map Slot) (t : State), HaltOnly u s t → HaltOnly u s (l.foldl (fun t e => t.stopSlot u e.1) t) := by
    intro l
    induction l with
    | nil => exact fun t h => h
    | cons e l ih => exact fun t h => ih _ (h.stopSlot e.1)
  exact hfold _ _ (haltOnly_updCore s u rfl)

theorem HaltOnly.lookHalt {u : Nat} {s t : State} (h : HaltOnly u s t) : HaltOnly u s (t.lookHalt u) :=
  h.trans (haltOnly_updCore t u rfl)

theorem core_lookHalt (t : State) (u : Nat) : (t.lookHalt u).core u = { t.core u with
    slots := (t.core u).slots.map (fun e => (e.1, e.2.freed)), fifo := [], stopping := false
    look := { (t.core u).look with run := false, desc := [], window := [] } } := core_setCore _ _ _

/-- The slot of another core stands as it did. -/
theorem HaltOnly.me {u : Nat} {s t : State} (h : HaltOnly u s t) (hu : s.cur ≠ u) : t.me = s.me := by
  rw [h.eq]
  exact congrArg (fun c : Core => mget {} c.slots s.slot) (core_setCore_ne s _ hu)

section
variable {s : State} {d a : GReg}

theorem exec_lkHalt_super (hsup : s.super = true) (ha : (s.readG a).toNat < 128) :
    let u := 1536 + (s.readG a).toNat % 128
    exec (.lkHalt d a) s = onStrand s (if (s.haltCore u).atRest u then
      (((s.haltCore u).lookHalt u).exchange s.cur u).gives d (BitVec.ofNat 64 (s.haltCount u)) 1
      else (Done.stay ((s.haltCore u).updMe (fun x => { x with readyAt := s.cycle + 1 }))).holding (.count (s.haltCount u))) := by
  intro u
  rw [exec_lkHalt, execLkHalt, needSuper_super hsup, lookTarget_some ha]
  rfl

/-- LK.HALT stays at its PC until the slots stand at their boundaries; it keeps its count. -/
theorem exec_lkHalt_waits (hcur : s.cur < 1536) (hpc : s.pc ≠ 0xFFFC) (hsup : s.super = true) (ha : (s.readG a).toNat < 128) :
    let u := 1536 + (s.readG a).toNat % 128
    (s.haltCore u).atRest u = false → exec (.lkHalt d a) s = .next ((s.haltCore u).setSlot s.cur s.slot
      { s.me with readyAt := s.cycle + 1, latched := some (.count (s.haltCount u)) }) := by
  intro u hrest
  have hhalt := haltOnly_haltCore s u
  have hslot : (s.haltCore u).cur = s.cur ∧ (s.haltCore u).slot = s.slot := by rw [hhalt.eq]; exact ⟨rfl, rfl⟩
  have hme : (s.haltCore u).me = s.me := hhalt.me (by omega)
  rw [exec_lkHalt_super hsup ha, if_neg (Bool.eq_false_iff.mp hrest), onStrand_of s _ hpc (isLookup_of_lt hcur), Done.holding,
    finish_stay, updMe_updMe, updMe_eq, hslot.1, hslot.2, hme]

end

/-- Settles O38: each command by the operands that it accepts; a halt changes its core alone. -/
theorem lookupCommands : Obligations.LookupCommands := by
  unfold Obligations.LookupCommands
  intro s d a b n hcur hpc v w u q m src dst traps fits
  refine ⟨?post, ?postRefused, ?stat, ?statRefused, fun hsup => ⟨?imld, ?imldRefused, ?run, ?runRefused, ?halt, ?haltRefused⟩⟩
  case post =>
    intro hv h7 hrel
    have hok : ¬ (2 ^ 10 ≤ v ∨ v / 2 ^ 7 % 2 = 1) := by omega
    exact ⟨fun hroom => gives_onStrand hcur hpc (exec_lkPost_room hok hrel hroom),
      fun hfull => gives_onStrand hcur hpc (exec_lkPost_full hok hrel hfull)⟩
  case postRefused =>
    intro h hin
    exact traps_onStrand hcur hpc hin ((exec_lkPost s d a b).trans
      (congrArg (onStrand s) (if_pos ((lkPost_refused_iff _).mpr h))))
  case stat =>
    intro hv hn
    have hcost : acqCost s.cur .device = 2 := by rw [acqCost_strand _ hcur]; rfl
    exact gives_onStrand hcur hpc (by rw [exec_lkStat_accepted hv hn, hcost])
  case statRefused => exact fun h hin => traps_onStrand hcur hpc hin (exec_lkStat_refused h)
  case imld =>
    intro hfits t
    obtain ⟨-, hbad, hgood⟩ := exec_lkImld_super (a := a) (b := b) hsup
    refine ⟨fun hb => completes_onStrand hcur hpc (hgood hfits hb), fun hb hin => ?_⟩
    have hin' : (t.memError (localBase s.cur + src)).bk.inTrap = false := by
      rwa [(memOnly_memError t _).bk, landFor_bk]
    exact trapsIn_onStrand hcur hpc hin' (hbad hfits hb)
  case imldRefused => exact fun hfits hin => traps_onStrand hcur hpc hin ((exec_lkImld_super hsup).1 hfits)
  case run =>
    intro goes fresh hv hw h4 hrun
    exact completes_onStrand hcur hpc (exec_lkRun_accepted hsup hv hw h4 hrun)
  case runRefused => exact fun h hin => traps_onStrand hcur hpc hin (exec_lkRun_refused hsup h)
  case halt =>
    intro hv t c k
    have hhalt := haltOnly_haltCore s u
    have hcore : c = _ := core_lookHalt t u
    refine ⟨fun hrest => ?_, fun hrest => exec_lkHalt_waits hcur hpc hsup hv hrest, hhalt.eq, hhalt.lookHalt.eq, ?_, ?_, ?_, ?_,
      hhalt.lookHalt.queues, ownBase_lookup _⟩
    · exact gives_onStrand hcur hpc ((exec_lkHalt_super hsup hv).trans (congrArg (onStrand s) (if_pos hrest)))
    · rw [hcore]
    · rw [hcore]
    · rw [hcore]
    · rw [hcore]
      simp [Slot.freed]
  case haltRefused =>
    intro hv hin
    exact traps_onStrand hcur hpc hin (by rw [exec_lkHalt s d a, execLkHalt, needSuper_super hsup, lookTarget_none hv])

end Sys2Proof.Machine
end

section
/-! SUPPORT. How events end the instruction of a waiting slot (R142), and what operations at slices leave (R58, R77). -/
namespace Sys2Proof.Machine

theorem core_congr {s t : State} (h : t.cores = s.cores) (u : Nat) : t.core u = s.core u := by rw [State.core, h, ← State.core]

theorem slotOf_congr {s t : State} {u : Nat} (h : t.core u = s.core u) (i : Nat) : t.slotOf u i = s.slotOf u i := by
  rw [State.slotOf, h, ← State.slotOf]

/-! ### The end of a waiting instruction -/

theorem retire_writeG_zero (s : State) (v : W64) (lat : Nat) : (s.writeG 0 v).retire lat = s.retire lat := by
  have hzero : s.me.updActive (fun b => b.writeG 0 v) = s.me := by
    unfold Slot.updActive
    split <;> rfl
  unfold State.writeG
  rw [retire_updBk, State.retire]
  apply updMe_congr
  simp only [hzero]

theorem wakes_of {e : Instr} {s t : State} {u i : Nat} {d : GReg} {v : W64} {lat : Nat} (hcycle : t.cycle = s.cycle)
    (h : exec e s = .next (((t.seenFrom u i).writeG d v).retire lat)) : Wakes e s t u i d v lat := by
  rw [Wakes, h, retire_writeG_seenFrom, hcycle]
  rfl

/-- The same of an instruction without a value. -/
theorem wakes_none_of {e : Instr} {s t : State} {u i : Nat} (v : W64) {lat : Nat} (hcycle : t.cycle = s.cycle)
    (h : exec e s = .next ((t.seenFrom u i).retire lat)) : Wakes e s t u i 0 v lat :=
  wakes_of hcycle (by rw [h, retire_writeG_zero])

/-- The same of an instruction that gives its value or none. -/
theorem wakes_optional {e : Instr} {s t : State} {u i : Nat} {d : GReg} {v : W64} {lat : Nat} {gives : Prop} [Decidable gives]
    (hcycle : t.cycle = s.cycle)
    (h : exec e s = .next ((if gives then (t.seenFrom u i).writeG d v else t.seenFrom u i).retire lat)) :
    Wakes e s t u i (if gives then d else 0) v lat := by
  by_cases hg : gives
  · rw [if_pos hg] at h ⊢
    exact wakes_of hcycle h
  · rw [if_neg hg] at h ⊢
    exact wakes_none_of v hcycle h

theorem acquire_seenFrom (s : State) (u i v j : Nat) (c : Scope) :
    (s.seenFrom u i).acquire v j c = (s.acquire v j c).seenFrom u i := by
  unfold State.acquire
  split
  · split <;> rfl
  · rfl

@[simp] theorem cycle_acquire (s : State) (u i : Nat) (c : Scope) : (s.acquire u i c).cycle = s.cycle := by
  unfold State.acquire
  split
  · split <;> rfl
  · rfl

/-! ### Slices -/

/-- `t` differs from `s` in clocks, replicas and the order of uses only. -/
structure SliceOnly (s t : State) : Prop where
  eq : t = { s with clocks := t.clocks, replicas := t.replicas, ticket := t.ticket }

theorem SliceOnly.trans {s t u : State} (h : SliceOnly s t) (g : SliceOnly t u) : SliceOnly s u := ⟨by rw [g.eq, h.eq]⟩

theorem SliceOnly.cores {s t : State} (h : SliceOnly s t) : t.cores = s.cores := by rw [h.eq]
theorem SliceOnly.mem {s t : State} (h : SliceOnly s t) : t.mem = s.mem := by rw [h.eq]
theorem SliceOnly.cycle {s t : State} (h : SliceOnly s t) : t.cycle = s.cycle := by rw [h.eq]
theorem SliceOnly.numAt {s t : State} (h : SliceOnly s t) (a n : Nat) : t.numAt a n = s.numAt a n := by rw [h.eq]; rfl
theorem SliceOnly.badGranules {s t : State} (h : SliceOnly s t) (ln : Nat) : t.badGranules ln = s.badGranules ln := by
  rw [h.eq]; rfl

theorem sliceOnly_bump (s : State) : SliceOnly s s.bump := ⟨rfl⟩
theorem sliceOnly_tell (s : State) (u v : Nat) : SliceOnly s (s.tell u v) := ⟨rfl⟩
theorem sliceOnly_exchange (s : State) (u v : Nat) : SliceOnly s (s.exchange u v) := ⟨rfl⟩

theorem sliceOnly_setReplicas (s : State) (m : Map (BitVec 16)) : SliceOnly s { s with replicas := m } := ⟨rfl⟩

theorem sliceOnly_readSlice (s : State) (u pa : Nat) (rd : Bool) : SliceOnly s (s.readSlice u pa rd) := by
  unfold State.readSlice State.replicate
  split
  · dsimp only
    split
    · exact sliceOnly_exchange s _ _
    · split
      · exact sliceOnly_exchange s _ _
      · exact (((sliceOnly_tell s _ _).trans (sliceOnly_setReplicas _ _)).trans (sliceOnly_exchange _ _ _)).trans
          (sliceOnly_tell _ _ _)
  · exact sliceOnly_exchange s _ _

/-- What the withdrawal of a line's replicas leaves (R77). -/
theorem withdraw_frame (s : State) (ln : Nat) :
    (s.withdraw ln).replicas = mset 0 s.replicas ln 0 ∧ (s.withdraw ln).mem = s.mem ∧ (s.withdraw ln).cores = s.cores := by
  have hfold : ∀ (l : List Nat) (f : Nat → Nat) (t : State),
      let r := l.foldl (fun t i => t.exchange (sliceKey (64 * ln)) (f i)) t
      r.replicas = t.replicas ∧ r.mem = t.mem ∧ r.cores = t.cores := by
    intro l f
    induction l with
    | nil => exact fun t => ⟨rfl, rfl, rfl⟩
    | cons i l ih => exact fun t => ih _
  exact hfold _ _ _

end Sys2Proof.Machine
end

section
/-! PROOFS. The fetch unit (R150). -/
namespace Sys2Proof.Machine

variable {s : State} {u slot : Nat}

/-- The words that a block read adds. -/
theorem blockWords_eq (t : State) (u pc k : Nat) :
    let a := pc + 4 * k
    let n := if (if 1536 ≤ u then 0x8000 else 0x10000) ≤ a then 0 else min (4 - a / 4 % 4) (4 - k)
    t.blockWords u pc k = (List.range n).map (fun j => BitVec.ofNat 32 (t.numAt (ownBase u + (a + 4 * j)) 4)) := by
  intro a n
  unfold State.blockWords
  simp only [n, ← ownSize_eq]
  split
  · rfl
  · rfl

/-- A change of core `u` and then of one of its slots. -/
theorem updSlot_updCore {t : State} (g : Core → Core) (f : Slot → Slot) (i : Nat) (h : t.core u = s.core u) :
    (t.updCore u g).updSlot u i f = (t.setCore u (g (s.core u))).setSlot u i (f (mget {} (g (s.core u)).slots i)) := by
  simp only [State.updSlot, State.slotOf, State.updCore, core_setCore, h]

theorem mem_order {n i j : Nat} (hj : j < n) : j ∈ (List.range n).map (fun k => (i + k) % n) := by
  refine List.mem_map.mpr ⟨(j + n - i % n) % n, List.mem_range.mpr (Nat.mod_lt _ (by omega)), ?_⟩
  have hi : i % n < n := Nat.mod_lt _ (by omega)
  have hsum : i + (j + n - i % n) = j + n * (i / n + 1) := by
    have hdiv := Nat.div_add_mod i n
    rw [Nat.mul_add]
    omega
  rw [Nat.add_mod_mod, hsum, Nat.add_mul_mod_self_left, Nat.mod_eq_of_lt hj]

/-- A block read for the slot that the fetch unit picks (R150). -/
theorem exec_fetchBlockRead (hpick : (s.core u).fetchPick u = some slot) (hat : (s.core u).fetchAt ≤ s.cycle) :
    let c := s.core u
    let x := s.slotOf u slot
    let t := s.landFor u (.localMem u)
    let a := x.active.pc.toNat + 4 * x.fetch.length
    let n := if (if 1536 ≤ u then 0x8000 else 0x10000) ≤ a then 0 else min (4 - a / 4 % 4) (4 - x.fetch.length)
    let r := t.report (t.badKey (ownBase u + a) (4 * n))
    exec (.fetchBlockRead u slot) s = .next ((r.setCore u { c with fetchAt := s.cycle + 1, fetchNext := slot + 1 }).setSlot u slot
      { x with
        fetch := x.fetch ++ (List.range n).map (fun j => BitVec.ofNat 32 (t.numAt (ownBase u + (a + 4 * j)) 4))
        landing := if x.fetch = [] then [] else x.landing.filter (fun e => decide (s.cycle < e.2)) ++ [(a, s.cycle + 2)]
        readyAt := if x.fetch = [] then max x.readyAt (s.cycle + 2) else x.readyAt }) := by
  intro c x t a n r
  have hwords : t.blockWords u x.active.pc.toNat x.fetch.length = _ := blockWords_eq t u _ _
  have hlen : (t.blockWords u x.active.pc.toNat x.fetch.length).length = n := by rw [hwords, List.length_map, List.length_range]
  have hcore : ∀ ks, (t.report ks).core u = s.core u := fun ks =>
    core_congr ((memOnly_report t ks).cores.trans (landFor_cores s u _)) u
  refine (if_pos ⟨hpick, hat⟩ : exec (.fetchBlockRead u slot) s = _).trans ?_
  rw [updSlot_updCore _ _ _ (hcore _), hlen, Nat.add_assoc]
  simp only [List.isEmpty_iff]
  rw [hwords]
  rfl

/-- The slot that the fetch unit picks can use a block, and is one with an empty buffer if there is one. -/
theorem fetchPick_spec {c : Core} {i : Nat} (h : c.fetchPick u = some i) : (mget {} c.slots i).canFetch u = true
    ∧ ((mget {} c.slots i).fetch = [] ∨ ∀ j, j < (if 1536 ≤ u then 8 else 16) → (mget {} c.slots j).canFetch u = true →
      (mget {} c.slots j).fetch ≠ []) := by
  have hn : (if isLookup u then 8 else 16) = if 1536 ≤ u then 8 else 16 := by simp [isLookup]
  unfold Core.fetchPick at h
  rw [hn] at h
  rcases Option.or_eq_some_iff.mp h with h | ⟨hnone, h⟩
  · have hfound := List.find?_some h
    obtain ⟨hcan, hempty⟩ := Bool.and_eq_true_iff.mp hfound
    exact ⟨hcan, .inl (List.isEmpty_iff.mp hempty)⟩
  · have hfound := List.find?_some h
    refine ⟨hfound, .inr fun j hj hcan hempty => ?_⟩
    exact List.find?_eq_none.mp hnone j (mem_order hj) (Bool.and_eq_true_iff.mpr ⟨hcan, List.isEmpty_iff.mpr hempty⟩)

end Sys2Proof.Machine
end

section
/-! PROOFS. Releases, replicas, snoops, posted stores and replies (R62, R66, R77, R80, R404, R416). -/
namespace Sys2Proof.Machine

variable {s : State} {u slot : Nat}

/-! ### Releases, replicas and snoops -/

theorem dropMarker_eq (i : Nat) (f : List FifoEntry) : dropMarker i f = f.filter (fun e => e != .marker i) := by
  refine List.filter_congr fun e _ => ?_
  cases e <;> simp [bne, BEq.beq]

theorem exec_releaseComplete (hw : (s.slotOf u slot).wait = .release) (hm : markerFirst slot (s.core u).fifo = true)
    (hp : s.posted.any (fun p => p.unit == u && p.slot == slot) = false) :
    exec (.releaseComplete u slot) s =
      .next ((s.setCore u { s.core u with fifo := (s.core u).fifo.filter (fun e => e != .marker slot) }).setSlot u slot
        { s.slotOf u slot with wait := .none, drained := true }) := by
  show execReleaseComplete u slot s = _
  simp only [execReleaseComplete, hw, hm, hp, Bool.not_false, Bool.and_self, if_true, dropMarker_eq]
  simp only [State.updSlot, State.slotOf, core_setCore]

theorem exec_replicaInvalidationDone {ln : Nat} (hw : (s.slotOf u slot).wait = .replica ln) :
    exec (.replicaInvalidationDone u slot) s = .next (((s.tell u (sliceKey (64 * ln))).withdraw ln).setSlot u slot
      { s.slotOf u slot with wait := .none, st := .run, clearedLine := some ln }) := by
  have hslot : ((s.tell u (sliceKey (64 * ln))).withdraw ln).slotOf u slot = s.slotOf u slot :=
    slotOf_congr (core_congr (withdraw_frame (s.tell u (sliceKey (64 * ln))) ln).2.2 u) slot
  show execReplicaInvalidationDone u slot s = _
  simp only [execReplicaInvalidationDone, hw, State.updSlot, hslot]

theorem exec_backInvalidateSnoop {ln : Nat} {now : Option (BitVec 512)} (hp : s.isPool (64 * ln) = true) :
    let data := if (mget {} s.pool ln).dirty = true then some (BitVec.ofNat 512 (s.numAt (64 * ln) 64)) else none
    exec (.backInvalidateSnoop ln now) s = .next { s with
      pool := merase s.pool ln
      outbox := s.outbox ++ [.snooped ln data]
      mem := match now with | some v => writeBytes s.mem (64 * ln) (leBytes 64 v.toNat) | none => s.mem } := by
  intro data
  show execBackInvalidateSnoop ln now s = _
  rw [execBackInvalidateSnoop, hp]
  cases now <;> rfl

/-! ### Posted stores -/

theorem sameDest_line (a b : Nat) :
    sameDest (.line a) (.line b) = true ↔ a = b ∨ Config.homeSlice a % 16 = Config.homeSlice b % 16 := by
  simp [sameDest]

theorem sameDest_localMem (a b : Nat) : sameDest (.localMem a) (.localMem b) = true ↔ a = b := by simp [sameDest]

theorem exec_postedStoreLanding {i : Nat} {p : Posted} (hp : s.posted[i]? = some p)
    (hfirst : (s.posted.take i).any (fun q => q.unit == p.unit && sameDest p.dest q.dest) = false) :
    exec (.postedStoreLanding i) s = .next ({ s with posted := s.posted.eraseIdx i }.land p) := by
  have hfirst' : (s.posted.take i).any (samePath p.unit p.dest) = false := hfirst
  show execPostedStoreLanding i s = _
  simp only [execPostedStoreLanding, hp, hfirst', Bool.false_eq_true, if_false, dropNth_eq_eraseIdx]

theorem clocks_touchPool (s : State) (a : Nat) (d : Bool) : (s.touchPool a d).clocks = s.clocks := by
  unfold State.touchPool
  split <;> rfl

theorem land_localMem {p : Posted} {v : Nat} (h : p.dest = .localMem v) : s.land p = s.put (ownBase v + p.addr.toNat) p.bytes := by
  simp only [State.land, h]

theorem land_line {p : Posted} {n : Nat} (h : p.dest = .line n) :
    s.land p = (s.exchange p.unit (sliceKey p.addr.toNat)).homePut p.addr.toNat p.bytes := by
  simp only [State.land, h]

theorem land_device {p : Posted} {v c : Nat} (h : p.dest = .device v c) : s.land p = s := by simp only [State.land, h]

/-! ### Replies -/

section
variable {r : RemoteReply} (hr : r.status = .done)
include hr

theorem wakes_remote_load {d : GReg} {n : Nat} {e : Bool} {a : W64} (hw : (s.slotOf u slot).wait = .remote (.load d n e a)) :
    Wakes (.remoteReply u slot r) s s u slot d (extended n (leNat (r.data.take n)) e)
      (max 1 ((s.slotOf u slot).readyAt - s.cycle)) := by
  apply wakes_of rfl
  show execRemoteReply u slot r s = _
  simp only [execRemoteReply, hw, hr, if_true]
  rfl

theorem wakes_remote_store {g : GReg} {a : W64} (hw : (s.slotOf u slot).wait = .remote (.store g a)) :
    Wakes (.remoteReply u slot r) s s u slot 0 0 (max 1 ((s.slotOf u slot).readyAt - s.cycle)) := by
  apply wakes_none_of _ rfl
  show execRemoteReply u slot r s = _
  simp only [execRemoteReply, hw, hr, if_true]
  rfl

theorem wakes_remote_value {d : GReg} {w : Bool} {a : W64} (hw : (s.slotOf u slot).wait = .remote (.value d w a)) :
    Wakes (.remoteReply u slot r) s s u slot d r.value (max 1 ((s.slotOf u slot).readyAt - s.cycle)) := by
  apply wakes_of rfl
  show execRemoteReply u slot r s = _
  simp only [execRemoteReply, hw, hr, if_true]
  rfl

/-- The answer of a remote atomic: the clock step of a seq_cst one, the acquire of its order, the old value unless it is a STA. -/
theorem wakes_remote_atomic {d : GReg} {k : BitVec 4} {q : Order} {sc : Scope} {a : W64}
    (hw : (s.slotOf u slot).wait = .remote (.atomic d k q sc a)) :
    let t0 := if q = .seqCst then s.setClock u (s.clockOf u + 1) else s
    Wakes (.remoteReply u slot r) s (if orderAcqs q = true then t0.acquire u slot sc else t0) u slot (if k ≠ 1 then d else 0) r.value
      (max 1 ((s.slotOf u slot).readyAt - s.cycle) + if orderAcqs q = true then acqCost u sc else 0) := by
  intro t0
  have hclock : (if q = .seqCst then (s.seenFrom u slot).setClock u ((s.seenFrom u slot).clockOf u + 1) else s.seenFrom u slot)
      = t0.seenFrom u slot := by
    simp only [t0]
    split <;> rfl
  have hacquire : (if orderAcqs q = true then (t0.seenFrom u slot).acquire u slot sc else t0.seenFrom u slot)
      = (if orderAcqs q = true then t0.acquire u slot sc else t0).seenFrom u slot := by
    rw [acquire_seenFrom, ← apply_ite (State.seenFrom · u slot)]
  have hcycle : (if orderAcqs q = true then t0.acquire u slot sc else t0).cycle = s.cycle := by
    have h0 : t0.cycle = s.cycle := by simp only [t0]; split <;> rfl
    split
    · rw [cycle_acquire, h0]
    · exact h0
  apply wakes_optional hcycle
  show execRemoteReply u slot r s = _
  simp only [execRemoteReply, hw, hr, if_true, State.wake, hclock, hacquire, finish_ok]
  rfl

/-- The answer of a FAB.AMO carries the clock of its request, 0 from another device's that has none (R416). -/
theorem wakes_remote_fab {d : GReg} {k : BitVec 4} {a : W64} (hw : (s.slotOf u slot).wait = .remote (.fab d k a)) :
    let t0 := if r.clock = 0 then s else s.setClock u (maxW (s.clockOf u) r.clock)
    Wakes (.remoteReply u slot r) s (if k ≠ 1 then t0.acquire u slot .domain else t0) u slot (if k ≠ 1 then d else 0) r.value
      (max 1 ((s.slotOf u slot).readyAt - s.cycle) + if k ≠ 1 then acqCost u .domain else 0) := by
  intro t0
  have hclock : (if r.clock = 0 then s.seenFrom u slot else
      (s.seenFrom u slot).setClock u (maxW ((s.seenFrom u slot).clockOf u) r.clock)) = t0.seenFrom u slot := by
    simp only [t0]
    split <;> rfl
  have h0 : t0.cycle = s.cycle := by simp only [t0]; split <;> rfl
  have hvalue : w64 r.value.toNat = r.value := (BitVec.ofNat_toNat 64 _).trans (BitVec.setWidth_eq _)
  have hexec : exec (.remoteReply u slot r) s = finish (s.seenFrom u slot)
      ((s.seenFrom u slot).fabAtomEnd d k a .done r.value.toNat r.clock (s.seenFrom u slot).restL) := by
    show execRemoteReply u slot r s = _
    simp only [execRemoteReply, hw, hr, true_or, if_true]
    rfl
  have hend : exec (.remoteReply u slot r) s = .next ((if k = 1 then t0.seenFrom u slot else
      ((t0.acquire u slot .domain).seenFrom u slot).writeG d r.value).retire
        (max 1 ((s.slotOf u slot).readyAt - s.cycle) + if k = 1 then 0 else acqCost u .domain)) := by
    rw [hexec, State.fabAtomEnd, hvalue, ← acquire_seenFrom, ← hclock, finish_ok]
    split <;> rfl
  by_cases hk : k = 1
  · simp only [hk, ne_eq, not_true, if_false, if_true] at hend ⊢
    exact wakes_none_of _ h0 hend
  · simp only [hk, ne_eq, not_false_iff, if_false, if_true] at hend ⊢
    exact wakes_of ((cycle_acquire _ _ _ _).trans h0) hend

end

end Sys2Proof.Machine
end

section
/-! PROOFS. The L1: lines that arrive and lines that are written back (R61, R148, R149, R231). -/
namespace Sys2Proof.Machine

/-! ### Slots that wait for a way -/

/-- The slot once a way may have come free. -/
def Slot.wayWoken (x : Slot) : Slot :=
  match x.wait with
  | .way _ => { x with wait := .none }
  | _ => x

theorem wayWoken_way {x : Slot} {k : Nat} (h : x.wait = .way k) : x.wayWoken = { x with wait := .none } := by
  simp only [Slot.wayWoken, h]

theorem wayWoken_load {x : Slot} {d : GReg} {pa : Nat} {va : W64} {h : Nat} (hw : x.wait = .load d pa va h) : x.wayWoken = x := by
  simp only [Slot.wayWoken, hw]

theorem mget_wakeWays (c : Core) (i : Nat) : mget {} c.wakeWays.slots i = (mget {} c.slots i).wayWoken := by
  have hmap : c.wakeWays.slots = c.slots.map (fun e => (e.1, e.2.wayWoken)) := by
    refine List.map_congr_left fun e _ => ?_
    cases hx : e.2.wait <;> simp only [Slot.wayWoken, hx]
  rw [hmap]
  exact mget_map {} Slot.wayWoken rfl c.slots i

/-! ### Writing a line back -/

/-- One byte of a line goes to its home if it is dirty. -/
def Line.putDirty (l : Line) (ln : Nat) (m : List Host.Cell) (i : Nat) : List Host.Cell :=
  if l.dirty.getLsbD i then mset 0 m (64 * ln + i) (BitVec.ofNat 8 (l.read i 1)) else m

theorem mget_foldl_putDirty (l : Line) (ln : Nat) (m : List Host.Cell) (n a : Nat) :
    mget 0 ((List.range n).foldl (l.putDirty ln) m) a =
      if 64 * ln ≤ a ∧ a < 64 * ln + n ∧ l.dirty.getLsbD (a - 64 * ln) = true then BitVec.ofNat 8 (l.read (a - 64 * ln) 1)
      else mget 0 m a := by
  induction n with
  | zero => rw [if_neg (by omega)]; rfl
  | succ n ih =>
    rw [List.range_succ, List.foldl_append, List.foldl_cons, List.foldl_nil, Line.putDirty]
    by_cases ha : a = 64 * ln + n
    · subst ha
      rw [Nat.add_sub_cancel_left]
      by_cases hd : l.dirty.getLsbD n = true
      · rw [if_pos hd, if_pos ⟨by omega, by omega, hd⟩, mget_mset_same]
      · rw [if_neg hd, ih, if_neg (by omega), if_neg (fun h => hd h.2.2)]
    · have hout : mget 0 (if l.dirty.getLsbD n = true then mset 0 ((List.range n).foldl (l.putDirty ln) m) (64 * ln + n)
          (BitVec.ofNat 8 (l.read n 1)) else (List.range n).foldl (l.putDirty ln) m) a =
          mget 0 ((List.range n).foldl (l.putDirty ln) m) a := by
        split
        · exact mget_mset_ne _ _ _ ha
        · rfl
      rw [hout, ih]
      have hrange : (64 * ln ≤ a ∧ a < 64 * ln + n ∧ l.dirty.getLsbD (a - 64 * ln) = true) ↔
          (64 * ln ≤ a ∧ a < 64 * ln + (n + 1) ∧ l.dirty.getLsbD (a - 64 * ln) = true) := by
        constructor <;> rintro ⟨h1, h2, h3⟩ <;> exact ⟨h1, by omega, h3⟩
      exact if_congr hrange rfl rfl

theorem read_byte (l : Line) (j : Nat) : BitVec.ofNat 8 (l.read j 1) = BitVec.ofNat 8 (l.data.toNat / 2 ^ (8 * j)) := by
  apply BitVec.eq_of_toNat_eq
  simp [Line.read]

theorem mget_writeBackBytes_dirty (m : List Host.Cell) (ln : Nat) (l : Line) {j : Nat} (hj : j < 64)
    (hd : l.dirty.getLsbD j = true) :
    mget 0 (writeBackBytes m ln l) (64 * ln + j) = BitVec.ofNat 8 (l.data.toNat / 2 ^ (8 * j)) := by
  refine (mget_foldl_putDirty l ln m 64 _).trans ?_
  rw [Nat.add_sub_cancel_left, if_pos ⟨by omega, by omega, hd⟩, read_byte]

theorem mget_writeBackBytes_out (m : List Host.Cell) (ln : Nat) (l : Line) {a : Nat}
    (h : ¬ ∃ j, j < 64 ∧ l.dirty.getLsbD j = true ∧ a = 64 * ln + j) : mget 0 (writeBackBytes m ln l) a = mget 0 m a := by
  refine (mget_foldl_putDirty l ln m 64 a).trans (if_neg ?_)
  rintro ⟨h1, h2, h3⟩
  exact h ⟨a - 64 * ln, by omega, h3, by omega⟩

theorem fifoWithout_eq (f : List FifoEntry) (ln : Nat) : fifoWithout f ln = f.filter (fun e => e != .line ln) := by
  refine List.filter_congr fun e _ => ?_
  cases e <;> simp [bne, BEq.beq]

theorem exec_fifoWriteback {s : State} {u ln : Nat} (h : (s.core u).fifo.find? FifoEntry.isLine = some (FifoEntry.line ln)) :
    exec (.fifoWriteback u) s = .next (((s.copyBack ln (mget ({} : Line) (s.core u).l1 ln)).exchange u (sliceKey (64 * ln))).setCore u
      { s.core u with
        l1 := mset {} (s.core u).l1 ln { mget ({} : Line) (s.core u).l1 ln with dirty := 0, since := 0 }
        fifo := (s.core u).fifo.filter (fun e => e != FifoEntry.line ln) }.wakeWays) := by
  show execFifoWriteback u s = _
  simp only [execFifoWriteback, State.writeOldest, h, fifoWithout_eq]

/-! ### Loads that end -/

/-- `t` differs from `s`, in what a fill speaks of, in slot `i` of core `u` only. -/
structure SlotOnly (u i : Nat) (s t : State) : Prop where
  mem : t.mem = s.mem
  cycle : t.cycle = s.cycle
  l1 : (t.core u).l1 = (s.core u).l1
  slots : ∀ j, j ≠ i → t.slotOf u j = s.slotOf u j

theorem setSlot_cores_congr {s t : State} (h : t.cores = s.cores) (u i : Nat) (x : Slot) :
    (t.setSlot u i x).cores = (s.setSlot u i x).cores := by
  simp only [State.setSlot, State.updCore, State.setCore, State.core, h]

theorem slotOnly_of_cores {s t : State} {u i : Nat} {x : Slot} (hcores : t.cores = (s.setSlot u i x).cores) (hmem : t.mem = s.mem)
    (hcycle : t.cycle = s.cycle) : SlotOnly u i s t := by
  have hcore := core_congr hcores u
  refine ⟨hmem, hcycle, ?_, fun j hj => ?_⟩
  · rw [hcore, State.setSlot, State.updCore, core_setCore]
  · rw [slotOf_congr hcore, slotOf_setSlot_ne _ _ (.inr hj)]

/-- A trap, double or not, changes its slot and what the engines outside are told. -/
theorem trap_frame (s : State) (c : Trap) :
    ∃ x, (s.trap c).cores = (s.setSlot s.cur s.slot x).cores ∧ (s.trap c).mem = s.mem ∧ (s.trap c).cycle = s.cycle := by
  unfold State.trap State.trapEntry
  split
  · unfold State.doubleTrap
    dsimp only
    split <;> exact ⟨_, rfl, rfl, rfl⟩
  · exact ⟨_, rfl, rfl, rfl⟩

theorem loadDone_not_load {s : State} {u i : Nat} (h : ∀ d pa va hd, (s.slotOf u i).wait ≠ .load d pa va hd) :
    s.loadDone u i = s := by
  unfold State.loadDone
  split
  · next d pa va hd hw => exact absurd hw (h d pa va hd)
  · rfl

theorem mem_memError (s : State) (k : Nat) : (s.memError k).mem = s.mem := by
  unfold State.memError
  split <;> rfl

theorem slotOnly_loadDone (s : State) (u i : Nat) : SlotOnly u i s (s.loadDone u i) := by
  unfold State.loadDone
  split
  · next d pa va hd _ =>
    dsimp only
    split
    · exact ⟨rfl, rfl, rfl, fun _ _ => rfl⟩
    · split
      · have herr := memOnly_memError (s.seenFrom u i) pa
        obtain ⟨x, hcores, hmem, hcycle⟩ := trap_frame ((s.seenFrom u i).memError pa) (loadError va (BitVec.ofNat 4 hd))
        rw [herr.cur, herr.slot, setSlot_cores_congr herr.cores] at hcores
        exact slotOnly_of_cores (s := s) hcores (hmem.trans (mem_memError _ _)) (hcycle.trans herr.cycle)
      · rw [retire_writeG_seenFrom]
        exact slotOnly_of_cores rfl rfl rfl
  · exact ⟨rfl, rfl, rfl, fun _ _ => rfl⟩

theorem loadDone_ends {s : State} {u i : Nat} {d : GReg} {pa : Nat} {va : W64} {h : Nat}
    (hw : (s.slotOf u i).wait = .load d pa va h) (hholds : (s.core u).holds pa = true) (hok : (s.core u).inError pa = false) :
    (s.loadDone u i).slotOf u i =
      (s.slotOf u i).ends d (BitVec.ofNat 64 ((s.core u).doubleword pa)) (s.cycle + max 1 ((s.slotOf u i).readyAt - s.cycle)) := by
  simp only [State.loadDone, hw, hholds, hok, Bool.not_true, Bool.false_eq_true, if_false, retire_writeG_seenFrom]
  exact slotOf_setSlot s u i _

/-! ### What an L1 holds depends on its lines alone -/

section
variable {c c' : Core} (h : c.l1 = c'.l1) (pa : Nat)
include h

theorem holds_congr : c.holds pa = c'.holds pa := by simp only [Core.holds, Core.partHeld, h]
theorem inError_congr : c.inError pa = c'.inError pa := by simp only [Core.inError, Core.partBad, h]
theorem doubleword_congr : c.doubleword pa = c'.doubleword pa := by simp only [Core.doubleword, Core.partRead, h]

end

/-! ### The loads that wait for a line -/

theorem foldl_loadDone_frame (u : Nat) (ws : List Nat) (s : State) :
    let t := ws.foldl (fun t i => t.loadDone u i) s
    t.mem = s.mem ∧ (t.core u).l1 = (s.core u).l1
      ∧ ∀ i, (∀ d pa va h, (s.slotOf u i).wait ≠ .load d pa va h) → t.slotOf u i = s.slotOf u i := by
  induction ws generalizing s with
  | nil => exact ⟨rfl, rfl, fun _ _ => rfl⟩
  | cons j ws ih =>
    obtain ⟨hmem, hl1, hslots⟩ := ih (s.loadDone u j)
    have hone := slotOnly_loadDone s u j
    refine ⟨hmem.trans hone.mem, hl1.trans hone.l1, fun i hi => ?_⟩
    have hslot : (s.loadDone u j).slotOf u i = s.slotOf u i := by
      by_cases hj : i = j
      · rw [← hj, loadDone_not_load hi]
      · exact hone.slots i hj
    exact (hslots i (hslot ▸ hi)).trans hslot

theorem foldl_loadDone_ends {u i : Nat} {d : GReg} {pa : Nat} {va : W64} {h : Nat} (ws : List Nat) (s : State) (hmem : i ∈ ws)
    (hw : (s.slotOf u i).wait = .load d pa va h) (hholds : (s.core u).holds pa = true) (hok : (s.core u).inError pa = false) :
    (ws.foldl (fun t i => t.loadDone u i) s).slotOf u i =
      (s.slotOf u i).ends d (BitVec.ofNat 64 ((s.core u).doubleword pa)) (s.cycle + max 1 ((s.slotOf u i).readyAt - s.cycle)) := by
  induction ws generalizing s with
  | nil => cases hmem
  | cons j ws ih =>
    by_cases hj : i = j
    · subst hj
      have hend := loadDone_ends hw hholds hok
      refine ((foldl_loadDone_frame u ws (s.loadDone u i)).2.2 i ?_).trans hend
      rw [hend]
      exact fun _ _ _ _ => Wait.noConfusion
    · have hone := slotOnly_loadDone s u j
      have hslot := hone.slots i hj
      have hend := ih (s.loadDone u j) ((List.mem_cons.mp hmem).resolve_left hj) (by rw [hslot, hw])
        (by rw [holds_congr hone.l1, hholds]) (by rw [inError_congr hone.l1, hok])
      rw [List.foldl_cons, hend, hslot, hone.cycle, doubleword_congr hone.l1]

theorem mem_of_mget_ne {α : Type} {d : α} {m : Map α} {k : Nat} (h : mget d m k ≠ d) : (k, mget d m k) ∈ m := by
  induction m with
  | nil => exact absurd rfl h
  | cons e m ih =>
    obtain ⟨j, v⟩ := e
    by_cases hj : j = k
    · subst hj
      simp [mget]
    · simp only [mget, if_neg hj] at h ⊢
      exact .tail _ (ih h)

theorem mem_loadWaiters {c : Core} {ln i : Nat} {d : GReg} {pa : Nat} {va : W64} {h : Nat}
    (hw : (mget {} c.slots i).wait = .load d pa va h) (hneeds : c.needs pa ln = true) : i ∈ c.loadWaiters ln := by
  have hne : mget {} c.slots i ≠ {} := fun hdef => by rw [hdef] at hw; cases hw
  refine List.mem_filterMap.mpr ⟨(i, mget {} c.slots i), mem_of_mget_ne hne, ?_⟩
  simp only [hw, hneeds, if_true]

theorem needs_within {c : Core} {pa ln : Nat} (hln : pa / 64 = ln) (h : pa % 64 ≤ 56) : c.needs pa ln = true := by
  simp [Core.needs, crosses_le h, hln]

/-! ### A line arrives -/

/-- The machine in which a line has come into the L1 of a core, the loads that wait for it still waiting. -/
def State.lineIn (s : State) (u ln : Nat) (m : Map Line) : State :=
  let c := s.core u
  (s.bump.readSlice u (64 * ln) (c.lineRd ln)).setCore u { c with
    l1 := mset {} m ln { (mget ({} : Line) c.l1 ln).fill (s.numAt (64 * ln) 64) (s.badGranules ln) (c.lineRd ln) with used := s.ticket + 1 }
    pref := c.pref.filter (fun x => x / 2 != ln) }.wakeWays

theorem sliceOnly_fill (s : State) (u pa : Nat) (rd : Bool) : SliceOnly s (s.bump.readSlice u pa rd) :=
  (sliceOnly_bump s).trans (sliceOnly_readSlice _ _ _ _)

theorem exec_l1Fill {s : State} {u ln : Nat} {m : Map Line} (hneed : (mget ({} : Line) (s.core u).l1 ln).filling = true
      ∨ (s.core u).loadWaiters ln ≠ [] ∨ (s.core u).pref.any (fun e => e / 2 == ln) = true) (hway : makeWay (s.core u).l1 ln = some m) :
    exec (.l1Fill u ln) s = .next (((s.core u).loadWaiters ln).foldl (fun t i => t.loadDone u i) (s.lineIn u ln m)) := by
  have hcond : ¬ (!(mget ({} : Line) (s.core u).l1 ln).filling && ((s.core u).loadWaiters ln).isEmpty
      && !((s.core u).pref.any (fun e => e / 2 == ln))) = true := by
    rcases hneed with h | h | h
    · simp only [h, Bool.not_true, Bool.false_and, Bool.false_eq_true, not_false_iff]
    · simp only [List.isEmpty_eq_false_iff.mpr h, Bool.and_false, Bool.false_and, Bool.false_eq_true, not_false_iff]
    · simp only [h, Bool.not_true, Bool.and_false, Bool.false_eq_true, not_false_iff]
  have hslice := sliceOnly_fill s u (64 * ln) ((s.core u).lineRd ln)
  show execL1Fill u ln s = _
  simp only [execL1Fill, if_neg hcond, hway, hslice.numAt, hslice.badGranules]
  rfl

section
variable (s : State) (u ln : Nat) (m : Map Line)

theorem mem_lineIn : (s.lineIn u ln m).mem = s.mem := (sliceOnly_fill s u (64 * ln) ((s.core u).lineRd ln)).mem

theorem cycle_lineIn : (s.lineIn u ln m).cycle = s.cycle := (sliceOnly_fill s u (64 * ln) ((s.core u).lineRd ln)).cycle

theorem l1_lineIn : ((s.lineIn u ln m).core u).l1 = mset {} m ln
    { (mget ({} : Line) (s.core u).l1 ln).fill (s.numAt (64 * ln) 64) (s.badGranules ln) ((s.core u).lineRd ln) with used := s.ticket + 1 } := by
  rw [State.lineIn, core_setCore]
  rfl

theorem slotOf_lineIn (i : Nat) : (s.lineIn u ln m).slotOf u i = (s.slotOf u i).wayWoken := by
  rw [State.slotOf, State.lineIn, core_setCore, mget_wakeWays]
  rfl

end

/-- A line that has just arrived holds every doubleword that lies in it. -/
theorem holds_filled {c : Core} {l : Line} {pa : Nat} (hl : mget ({} : Line) c.l1 (pa / 64) = l) (hfill : l.filling = false)
    (hvalid : l.valid = BitVec.allOnes 64) (h : pa % 64 ≤ 56) : c.holds pa = true := by
  simp only [Core.holds, crosses_le h, Core.partHeld, hl, hfill, Line.has, hvalid, BitVec.allOnes_and, Bool.false_eq_true, if_false,
    Bool.not_false, Bool.true_and, decide_true]

theorem doubleword_within {c : Core} {pa : Nat} (h : pa % 64 ≤ 56) :
    c.doubleword pa = (mget ({} : Line) c.l1 (pa / 64)).data.toNat / 2 ^ (8 * (pa % 64)) % 2 ^ 64 := by
  simp [Core.doubleword, crosses_le h, Core.partRead, Line.read]

end Sys2Proof.Machine
end

section
/-! PROOFS. What arrives at a core, all events together. -/
namespace Sys2Proof.Machine

/-- A fill, with what it leaves of the L1 and of each waiting slot (R149, R230, R231). -/
theorem l1Fill_effect {s : State} {u ln : Nat} {m : Map Line} :
    let c := s.core u
    let t := (c.loadWaiters ln).foldl (fun t i => t.loadDone u i) (s.lineIn u ln m)
    let l := (mget ({} : Line) c.l1 ln).fill (s.numAt (64 * ln) 64) (s.badGranules ln) (c.lineRd ln)
    mget {} (t.core u).l1 ln = { l with used := s.ticket + 1 }
    ∧ (∀ k, k ≠ ln → mget {} (t.core u).l1 k = mget {} m k)
    ∧ (∀ i d pa va h, (s.slotOf u i).wait = .load d pa va h → (t.core u).inError pa = false →
        (pa / 64 = ln → pa % 64 ≤ 56 →
          t.slotOf u i = (s.slotOf u i).ends d (BitVec.ofNat 64 (l.data.toNat / 2 ^ (8 * (pa % 64)) % 2 ^ 64))
            (s.cycle + max 1 ((s.slotOf u i).readyAt - s.cycle)))
        ∧ (56 < pa % 64 → c.needs pa ln = true → (t.core u).holds pa = true →
          t.slotOf u i = (s.slotOf u i).ends d (BitVec.ofNat 64 ((t.core u).doubleword pa))
            (s.cycle + max 1 ((s.slotOf u i).readyAt - s.cycle))))
    ∧ ∀ i k, (s.slotOf u i).wait = .way k → t.slotOf u i = { s.slotOf u i with wait := .none } := by
  intro c t l
  obtain ⟨-, hl1, hslots⟩ := foldl_loadDone_frame u (c.loadWaiters ln) (s.lineIn u ln m)
  have hlines : (t.core u).l1 = mset {} m ln { l with used := s.ticket + 1 } := hl1.trans (l1_lineIn s u ln m)
  have hline : mget ({} : Line) (t.core u).l1 ln = { l with used := s.ticket + 1 } := by rw [hlines, mget_mset_same]
  refine ⟨hline, fun k hk => by rw [hlines, mget_mset_ne _ _ _ hk], fun i d pa va h hw hok => ?_, fun i k hw => ?_⟩
  · have hslot : (s.lineIn u ln m).slotOf u i = s.slotOf u i := (slotOf_lineIn s u ln m i).trans (wayWoken_load hw)
    have ends_of : c.needs pa ln = true → (t.core u).holds pa = true →
        t.slotOf u i = (s.slotOf u i).ends d (BitVec.ofNat 64 ((t.core u).doubleword pa))
          (s.cycle + max 1 ((s.slotOf u i).readyAt - s.cycle)) := by
      intro hneeds hholds
      have hend := foldl_loadDone_ends (c.loadWaiters ln) (s.lineIn u ln m) (mem_loadWaiters hw hneeds) (by rw [hslot, hw])
        (by rw [← holds_congr hl1, hholds]) (by rw [← inError_congr hl1, hok])
      rwa [hslot, cycle_lineIn, ← doubleword_congr hl1] at hend
    refine ⟨fun hln hin => ?_, fun _ => ends_of⟩
    have hheld : (t.core u).holds pa = true := holds_filled (by rw [hln, hline]) rfl rfl hin
    rw [ends_of (needs_within hln hin) hheld, doubleword_within hin, hln, hline]
  · have hslot : (s.lineIn u ln m).slotOf u i = { s.slotOf u i with wait := .none } :=
      (slotOf_lineIn s u ln m i).trans (wayWoken_way hw)
    refine (hslots i ?_).trans hslot
    rw [hslot]
    exact fun _ _ _ _ => Wait.noConfusion

/-- Settles O47: each arrival is one event whose condition holds; the fill and the write-back are followed through the lines, the
bytes and the waiting slots. -/
theorem coreArrivals : Obligations.CoreArrivals := by
  unfold Obligations.CoreArrivals
  intro s u slot c x L
  refine ⟨?fetch, fun i => fetchPick_spec, ?fill, ?writeback, exec_releaseComplete, ?replica, fun ln now => exec_backInvalidateSnoop,
    ?landing, sameDest_line, sameDest_localMem, ?replies⟩
  case fetch => exact fun hpick hat => ⟨exec_fetchBlockRead hpick hat, fun y => rfl⟩
  case fill =>
    intro ln m hneed hway
    refine ⟨_, exec_l1Fill hneed hway, fun a => ?_, l1Fill_effect⟩
    rw [State.byteAt, (foldl_loadDone_frame u _ _).1, mem_lineIn]
    rfl
  case writeback =>
    intro ln hfind
    refine ⟨_, exec_fifoWriteback hfind, ?_⟩
    intro l
    refine ⟨fun j hj hd => mget_writeBackBytes_dirty s.mem ln l hj hd, fun a ha => mget_writeBackBytes_out s.mem ln l ha, ?_⟩
    rw [core_setCore]
    refine ⟨mget_mset_same _ _ _ _, fun k hk => mget_mset_ne _ _ _ hk, rfl, fun i => ?_⟩
    rw [State.slotOf, core_setCore, mget_wakeWays]
    rfl
  case replica =>
    intro ln hw t
    obtain ⟨hreplicas, hmem, -⟩ := withdraw_frame (s.tell u (sliceKey (64 * ln))) ln
    exact ⟨exec_replicaInvalidationDone hw, hreplicas, hmem⟩
  case landing =>
    intro i p hp hfirst
    have hland := memOnly_land { s with posted := s.posted.eraseIdx i } p
    refine ⟨_, exec_postedStoreLanding hp hfirst, hland.posted, hland.cores, hland.outbox, ?_⟩
    cases hd : p.dest with
    | localMem v =>
      rw [land_localMem hd]
      exact ⟨rfl, rfl⟩
    | line n =>
      rw [land_line hd]
      exact ⟨clocks_touchPool _ _ _, mem_touchPool _ _ _⟩
    | device v k =>
      rw [land_device hd]
      exact ⟨rfl, rfl⟩
  case replies =>
    intro r hr
    exact ⟨fun d n e a => wakes_remote_load hr, fun g a => wakes_remote_store hr, fun d k q sc a => wakes_remote_atomic hr,
      fun d k a => wakes_remote_fab hr, fun d w a => wakes_remote_value hr⟩

end Sys2Proof.Machine
end

section
/-! PROOFS. Transfer commands of the copy unit: what they issue with, the wait for a queue entry, the queueing, and the tile that
CPY.TILE opens (R246, R274, R277 to R279, R282 to R284, R286). -/
namespace Sys2Proof.Machine

/-! ### The checks, the wait and the release (R274) -/

/-- What a transfer command issues with: what it latched before a wait, or what its rule finds in registers that pass. -/
def State.copyAsked (s : State) (x : Chan) (l : Option Latched) : Option (Latched × Map W64) :=
  match s.me.latched with
  | some (.command regs src dst wide) => some ({ src := src, dst := dst, global := wide }, regs)
  | _ => if s.cwOk (x.reg 6) = true then l.map (fun y => (y, x.regs)) else none

theorem copyCheck_eq (s : State) (x : Chan) (l : Option Latched) (k : Latched → Map W64 → Done) :
    s.copyCheck x l k = (s.copyAsked x l).elim (.trap s.command) (fun q => k q.1 q.2) := by
  have hfresh : (match l with
      | none => .trap s.command
      | some y => if !s.cwOk (x.reg 6) then .trap s.command else k y x.regs : Done)
      = (if s.cwOk (x.reg 6) = true then l.map (fun y => (y, x.regs)) else none).elim (.trap s.command) (fun q => k q.1 q.2) := by
    cases l <;> cases s.cwOk (x.reg 6) <;> rfl
  unfold State.copyCheck State.copyAsked
  rcases s.me.latched with _ | _ | _ | _
  case some.command => rfl
  all_goals exact hfresh

section
variable {s : State} {x : Chan} {l : Option Latched} {k : Latched → Map W64 → Done}

theorem copyCheck_passes {y : Latched} {regs : Map W64} (h : s.copyAsked x l = some (y, regs)) : s.copyCheck x l k = k y regs := by
  rw [copyCheck_eq, h]; rfl

theorem copyCheck_refused (h : s.copyAsked x l = none) : s.copyCheck x l k = .trap s.command := by rw [copyCheck_eq, h]; rfl

end

section
variable {s : State} {c : BitVec 3} {y : Latched} {regs : Map W64} {k : State → Done}

theorem copyGo_room (hroom : (s.chan s.cl c.toNat).queue.length < 4) (hrel : Released s y.scope) :
    s.copyGo c y regs k = (k s).holding (y.keep regs) := by
  rw [State.copyGo, if_neg (Nat.not_le.mpr hroom), releasing_released hrel]

theorem copyGo_full (hfull : 4 ≤ (s.chan s.cl c.toNat).queue.length) : s.copyGo c y regs k =
    .stay (s.setSlot s.cur s.slot { s.me with wait := .queue, st := .wait, latched := some (y.keep regs) }) := by
  rw [State.copyGo, if_pos hfull, Done.holding, State.parkFor, updMe_updMe, updMe_eq]

end

/-! ### How a command ends -/

section
variable {i : Instr} {s : State} {c : BitVec 3} {l : Option Latched} {k : Latched → Map W64 → State → Done}
variable (hcur : s.cur < 1536) (hpc : s.pc ≠ 0xFFFC)
variable (hi : exec i s = onStrand s (s.copyCheck (s.chan s.cl c.toNat) l (fun y regs => s.copyGo c y regs (k y regs))))
include hcur hpc hi

theorem gives_copyGo {u : State} {d : GReg} {v : W64} {lat : Nat} {y : Latched} {regs : Map W64}
    (ha : s.copyAsked (s.chan s.cl c.toNat) l = some (y, regs)) (hroom : (s.chan s.cl c.toNat).queue.length < 4)
    (hrel : Released s y.scope) (hk : k y regs s = u.gives d v lat) : Gives i s u d v 0 lat :=
  gives_onStrand hcur hpc (by rw [hi, copyCheck_passes ha, copyGo_room hroom hrel, hk]; rfl)

theorem exec_copyGo_waits {y : Latched} {regs : Map W64} (ha : s.copyAsked (s.chan s.cl c.toNat) l = some (y, regs))
    (hfull : 4 ≤ (s.chan s.cl c.toNat).queue.length) :
    exec i s = .next (s.setSlot s.cur s.slot { s.me with wait := .queue, st := .wait, latched := some (y.keep regs) }) := by
  rw [hi, copyCheck_passes ha, copyGo_full hfull, onStrand_of s _ hpc (isLookup_of_lt hcur), finish_stay]

theorem traps_copyCheck (ha : s.copyAsked (s.chan s.cl c.toNat) l = none) (hin : s.bk.inTrap = false) :
    TrapsTo i s s 0x11 (s.word.zeroExtend 64) 0 false :=
  traps_onStrand hcur hpc hin (hi.trans (congrArg (onStrand s) (copyCheck_refused ha)))

end

/-! ### Commands that open no tile -/

/-- The checks, the wait, the release and the queueing of a command that opens no tile. -/
def State.copyCommand (s : State) (d : GReg) (c : BitVec 3) (fn : Nat) (opnd : W64) (drop sl : Bool) (l : Option Latched) : Done :=
  s.copyCheck (s.chan s.cl c.toNat) l (fun y regs => s.copyGo c y regs (fun t =>
    (t.queueCopy c.toNat fn y opnd drop sl regs).gives d (zx ((s.chan s.cl c.toNat).seq + 1)) 4))

section
variable (s : State) (d a b : GReg) (e p : Bool) (c : BitVec 3)

theorem exec_cpyLin : exec (.cpyLin d c) s =
    onStrand s (s.copyCommand d c 0x12 0 false false (s.latchLin (s.chan s.cl c.toNat))) := rfl
theorem exec_cpyTen : exec (.cpyTen d c) s =
    onStrand s (s.copyCommand d c 0x13 0 false false (s.latchTen (s.chan s.cl c.toNat))) := rfl
theorem exec_cpyWblk : exec (.cpyWblk d a p c) s =
    onStrand s (s.copyCommand d c 0x15 (s.readG a) p false (s.latchWblk (s.chan s.cl c.toNat) (s.readG a))) := rfl
theorem exec_cpyKvg : exec (.cpyKvg d c) s =
    onStrand s (s.copyCommand d c 0x17 0 false false (s.latchKvg (s.chan s.cl c.toNat))) := rfl
theorem exec_cpyPgin : exec (.cpyPgin d a c) s =
    onStrand s (s.copyCommand d c 0x18 (s.readG a) false false (s.latchMove (s.chan s.cl c.toNat) (s.readG a))) := rfl
theorem exec_cpyPgout : exec (.cpyPgout d a c) s =
    onStrand s (s.copyCommand d c 0x19 (s.readG a) false false (s.latchMove (s.chan s.cl c.toNat) (s.readG a))) := rfl

theorem exec_cpyRblk :
    let ring := (mget 0 (s.chan s.cl c.toNat).regs 4).toNat % 16
    exec (.cpyRblk d c) s = onStrand s (if s.resumed = false ∧ 6 < ring then .trap { code := 0x10, eval := w64 ring }
      else s.copyCommand d c 0x16 0 false false (s.latchRblk (s.chan s.cl c.toNat))) := by
  have hfmt : (shapeOf (nf ((s.chan s.cl c.toNat).reg 4) 0 32)).fmt = (mget 0 (s.chan s.cl c.toNat).regs 4).toNat % 16 := by
    simp only [shapeOf, nf_low, Chan.reg]
    omega
  intro ring
  refine congrArg (onStrand s) ?_
  simp only [hfmt, Bool.and_eq_true, Bool.not_eq_true', decide_eq_true_eq]
  rfl

/-- CPY.TILE without open names a buffer of its own cluster (R279). -/
theorem exec_cpyTile_handle :
    let r := tileRef ((mget 0 (s.chan s.cl c.toNat).regs 1).truncate 32)
    exec (.cpyTile d a b e false c) s = onStrand s (s.copyCommand d c 0x14 0 false e
      (if r.dev = s.devNum ∧ r.cl = s.cl ∧ r.cl ≤ 95 ∧ r.b ≤ 383 then
        s.latchTile (s.chan s.cl c.toNat) (s.buf r.cl r.b).rows (s.buf r.cl r.b).pitch
      else none)) := by
  have href : tileRef (w32 ((s.chan s.cl c.toNat).reg 1)) = tileRef ((mget 0 (s.chan s.cl c.toNat).regs 1).truncate 32) :=
    congrArg tileRef (BitVec.ofNat_toNat 32 _)
  intro r
  have hown : (r.dev ≠ s.devNum ∨ r.cl ≠ s.cl ∨ (!r.inRange) = true)
      ↔ ¬ (r.dev = s.devNum ∧ r.cl = s.cl ∧ r.cl ≤ 95 ∧ r.b ≤ 383) := by
    simp only [TileRef.inRange, Bool.not_eq_true', Bool.and_eq_false_iff, decide_eq_false_iff_not]
    tauto
  refine congrArg (onStrand s) (?_ : s.tileIssue d e c = _)
  simp only [State.tileIssue, State.copyCommand, href, r, if_congr hown rfl rfl, ite_not]

end

/-! ### A command that opens a tile (R246, R279) -/

/-- The queueing of a command that has passed its checks: the open, then the queue; where no buffer is FREE it queues nothing. -/
def State.openCopy (s : State) (d : GReg) (e : Bool) (c : BitVec 3) (sh : Shape) (timer : Nat) (y : Latched) (regs : Map W64) : Done :=
  match s.freeBuf s.cl with
  | none => s.gives d (BitVec.allOnes 64) 8
  | some n =>
    let u := s.openTile s.cl n sh (if nb (mget 0 regs 4).toNat 25 then 1 else 0) (BitVec.ofNat 16 timer)
    let h := u.handleOf u.cl n
    (u.queueCopy c.toNat 0x14 y 0 false e
      (mset 0 regs 1 (w64 ((mget 0 regs 1).toNat / 2 ^ 32 * 2 ^ 32 + h.toNat)))).gives d (zx h) 8

/-- An open leaves the channels as they are. -/
theorem chan_openTile (s : State) (cl n ch : Nat) (sh : Shape) (mu : BitVec 1) (t : BitVec 16) :
    (s.openTile cl n sh mu t).chan cl ch = s.chan cl ch := by
  rw [State.chan, State.openTile, State.setBuf, State.updCluster, cluster_setCluster]
  rfl

/-- An open keeps the generation (R246). -/
theorem handleOf_openTile (s : State) (cl n : Nat) (sh : Shape) (mu : BitVec 1) (t : BitVec 16) :
    (s.openTile cl n sh mu t).handleOf cl n = mkHandle s.devNum cl n (s.buf cl n).gen := by
  rw [State.handleOf, State.openTile, buf_setBuf]
  rfl

section
variable {s : State} (d a b : GReg) (e : Bool) (c : BitVec 3)

theorem openCopy_none {sh : Shape} {timer : Nat} {y : Latched} {regs : Map W64} (h : s.freeBuf s.cl = none) :
    s.openCopy d e c sh timer y regs = s.gives d (BitVec.allOnes 64) 8 := by
  rw [State.openCopy, h]

theorem openCopy_some {sh : Shape} {timer n : Nat} {y : Latched} {regs : Map W64} (hn : s.freeBuf s.cl = some n) :
    let x := s.chan s.cl c.toNat
    let u := s.openTile s.cl n sh (if nb (mget 0 regs 4).toNat 25 then 1 else 0) (BitVec.ofNat 16 timer)
    let h := mkHandle s.devNum s.cl n (s.buf s.cl n).gen
    s.openCopy d e c sh timer y regs =
      (u.setChan s.cl c.toNat { x with seq := x.seq + 1, queue := x.queue ++
        [{ fn := 0x14, seq := (x.seq + 1).toNat, unit := s.cur, task := (s.core s.cur).task,
           regs := mset 0 regs 1 (w64 ((mget 0 regs 1).toNat / 2 ^ 32 * 2 ^ 32 + h.toNat)), opnd := 0, drop := false,
           sealed := e, src := y.src, dst := y.dst }] }).gives d (zx h) 8 := by
  intro x u h
  have hx : u.chan u.cl c.toNat = x := chan_openTile s s.cl n c.toNat sh _ _
  have hh : u.handleOf u.cl n = h := handleOf_openTile s s.cl n sh _ _
  have hcopy : s.openCopy d e c sh timer y regs = (u.queueCopy c.toNat 0x14 y 0 false e (mset 0 regs 1
      (w64 ((mget 0 regs 1).toNat / 2 ^ 32 * 2 ^ 32 + (u.handleOf u.cl n).toNat)))).gives d (zx (u.handleOf u.cl n)) 8 := by
    rw [State.openCopy, hn]
  rw [hcopy, hh, State.queueCopy, hx]
  rfl

theorem exec_cpyTile_domain (h : 1 < (shapeOf (s.readG a).toNat).dom) : exec (.cpyTile d a b e true c) s =
    onStrand s (.trap { code := 0x0F, eval := w64 ((s.readG a).toNat % 2 ^ 32), reg := d.toNat }) :=
  congrArg (onStrand s) ((if_pos h).trans (by rw [nf_low]))

theorem exec_cpyTile_format (hdom : (shapeOf (s.readG a).toNat).dom ≤ 1) (h : 6 < (shapeOf (s.readG a).toNat).fmt) :
    exec (.cpyTile d a b e true c) s = onStrand s (.trap { code := 0x10, eval := w64 (shapeOf (s.readG a).toNat).fmt }) :=
  congrArg (onStrand s) ((if_neg (Nat.not_lt.mpr hdom)).trans (if_pos h))

theorem exec_cpyTile_open (hdom : (shapeOf (s.readG a).toNat).dom ≤ 1) (hfmt : (shapeOf (s.readG a).toNat).fmt ≤ 6) :
    let w := (s.readG a).toNat
    let timer := (s.readG b).toNat
    let sh := shapeOf w
    let x := s.chan s.cl c.toNat
    exec (.cpyTile d a b e true c) s =
      onStrand s (s.copyCheck x (if w < 2 ^ 32 ∧ timer < 2 ^ 16 ∧ sh.fits = true then s.latchTile x sh.rows sh.pitch else none)
        (fun y regs => s.copyGo c y regs (fun t => t.openCopy d e c sh timer y regs))) := by
  intro w timer sh x
  have hshape : (nf w 32 32 ≠ 0 ∨ nf timer 16 48 ≠ 0 ∨ (!sh.fits) = true) ↔ ¬ (w < 2 ^ 32 ∧ timer < 2 ^ 16 ∧ sh.fits = true) := by
    rw [ne_eq, ne_eq, nf_high_eq_zero _ rfl, nf_high_eq_zero _ rfl, Bool.not_eq_true', ← Bool.not_eq_true]
    tauto
  refine congrArg (onStrand s) ((if_neg (Nat.not_lt.mpr hdom)).trans ((if_neg (Nat.not_lt.mpr hfmt)).trans ?_))
  rw [if_congr hshape rfl rfl, ite_not]
  rfl

end

/-- Settles O34: every command goes through its checks, the wait, the release and the queueing in one way, which splits on what it
issues with and on the room in the queue; CPY.RBLK and CPY.TILE put their traps and the open around it. -/
theorem copyIssue : Obligations.CopyIssue := by
  unfold Obligations.CopyIssue
  intro s d a b e p c hcur hpc cl x r own buf ring asked cmd waits traps go
  have issue : ∀ i fn l opnd drop sl, exec i s = onStrand s (s.copyCommand d c fn opnd drop sl l) → go i fn l opnd drop sl :=
    fun i fn l opnd drop sl hi => ⟨fun y regs ha hroom hrel => gives_copyGo hcur hpc hi ha hroom hrel rfl,
      fun y regs ha hfull => exec_copyGo_waits hcur hpc hi ha hfull, fun ha hin => traps_copyCheck hcur hpc hi ha hin⟩
  refine ⟨issue _ _ _ _ _ _ (exec_cpyLin s d c), issue _ _ _ _ _ _ (exec_cpyTen s d c),
    issue _ _ _ _ _ _ (exec_cpyTile_handle s d a b e c), issue _ _ _ _ _ _ (exec_cpyWblk s d a p c), ?rblk, ?ring,
    issue _ _ _ _ _ _ (exec_cpyKvg s d c), issue _ _ _ _ _ _ (exec_cpyPgin s d a c), issue _ _ _ _ _ _ (exec_cpyPgout s d a c), ?opened⟩
  case rblk =>
    intro hring
    refine issue _ _ _ _ _ _ ((exec_cpyRblk s d c).trans (congrArg (onStrand s) (if_neg ?_)))
    rintro ⟨hfresh, hover⟩
    exact hring.elim (Nat.not_le.mpr hover) (Bool.eq_false_iff.mp hfresh)
  case ring =>
    intro hover hfresh hin
    exact traps_onStrand hcur hpc hin ((exec_cpyRblk s d c).trans (congrArg (onStrand s) (if_pos ⟨hfresh, hover⟩)))
  case opened =>
    intro w sh timer l i
    refine ⟨fun hdom hin => traps_onStrand hcur hpc hin (exec_cpyTile_domain d a b e c hdom),
      fun hdom hfmt hin => traps_onStrand hcur hpc hin (exec_cpyTile_format d a b e c hdom hfmt), fun hdom hfmt => ?_⟩
    have hi := exec_cpyTile_open d a b e c hdom hfmt
    refine ⟨fun ha hin => traps_copyCheck hcur hpc hi ha hin, fun y regs ha =>
      ⟨fun hfull => exec_copyGo_waits hcur hpc hi ha hfull, fun hroom hrel => ⟨fun hnone => ?_, fun n hn => ?_⟩⟩⟩
    · exact gives_copyGo hcur hpc hi ha hroom hrel (openCopy_none d e c hnone)
    · exact gives_copyGo hcur hpc hi ha hroom hrel (openCopy_some d e c hn)

end Sys2Proof.Machine
end

section
/-! PROOFS. Task cells (R258, R470, R471). -/
namespace Sys2Proof.Machine

/-! ### The decrement of a cell and the parked task -/

/-- A task becomes ready when its entry of the parked-task table is in use, and no other task does. -/
theorem ready_makeReady (s : State) (n : Nat) (disc : Bool) :
    (s.makeReady n disc).dist.ready = s.dist.ready ++ (if s.dist.parked.any (fun e => e.1 == n) then [n] else []) := by
  unfold State.makeReady
  cases hfind : s.dist.parked.find? (fun e => e.1 == n) with
  | none =>
    have hfree : s.dist.parked.any (fun e => e.1 == n) = false := by rw [← List.isSome_find?, hfind]; rfl
    simp [hfree]
  | some e =>
    have hused : s.dist.parked.any (fun e => e.1 == n) = true := by rw [← List.isSome_find?, hfind]; rfl
    simp [hused]

theorem makeReady_eq (s : State) (n : Nat) (disc : Bool) : s.makeReady n disc = { s with dist := (s.makeReady n disc).dist } := by
  unfold State.makeReady
  split <;> rfl

theorem mem_makeReady (s : State) (n : Nat) (disc : Bool) : (s.makeReady n disc).mem = s.mem := by rw [makeReady_eq]

section
variable {t : State} {key : Nat}

theorem decCell_empty (h : t.numAt key 8 % 2 ^ 32 = 0) : t.decCell key = none := by
  simp only [State.decCell, nf_low, h, if_true]

theorem decCell_counts (h0 : t.numAt key 8 % 2 ^ 32 ≠ 0) (hlast : ¬ (t.numAt key 8 % 2 ^ 32 = 1 ∧ t.numAt key 8 / 2 ^ 32 % 2 = 1)) :
    t.decCell key = some (t.numAt key 8 % 2 ^ 32 - 1, t.put key (leBytes 8 (t.numAt key 8 - 1))) := by
  simp only [State.decCell, nf_low, nb, decide_eq_true_eq, if_neg h0, if_neg hlast]
  rfl

theorem decCell_parked (h1 : t.numAt key 8 % 2 ^ 32 = 1) (hpark : t.numAt key 8 / 2 ^ 32 % 2 = 1) :
    t.decCell key = some (0, (t.put key (leBytes 8 0)).makeReady (t.numAt key 8 / 2 ^ 34 % 2 ^ 12) (nb (t.numAt key 8) 33)) := by
  have hset : nb (t.numAt key 8) 32 = true := decide_eq_true hpark
  simp only [State.decCell, nf_low, h1, hset, if_neg Nat.one_ne_zero, and_self, if_true]
  rfl

end

/-! ### TASKDEC -/

section
variable {s : State} {d a : GReg} {p : Place} (hp : s.resolve s.cur (s.readG a) 8 = some p) (htile : p.tile = false)
    (hdev : p.dev = s.devNum) (hrel : Released s (between s.cur p.unit))
    (hbad : (s.landFor s.cur (.localMem p.unit)).bad p.key 8 = false)
include hp htile hdev hrel hbad

/-- TASKDEC of a cell of this device with a count of 0, after the unit's earlier stores there have landed. -/
theorem exec_taskdec_empty (hcell : (s.landFor s.cur (.localMem p.unit)).decCell p.key = none) :
    exec (.taskdec d a) s =
      onBoth s ((s.landFor s.cur (.localMem p.unit)).gives d (BitVec.allOnes 64) (tripFrom s.cur p.cl)) := by
  show execTaskdec d a s = _
  simp only [execTaskdec, hp, htile, Bool.false_eq_true, if_false, if_neg (not_not_intro hdev), releasing_released hrel, hbad, hcell]

/-- TASKDEC of a cell of this device that is decremented to `n`. -/
theorem exec_taskdec_counted {n : Nat} {u : State} (hcell : (s.landFor s.cur (.localMem p.unit)).decCell p.key = some (n, u)) :
    exec (.taskdec d a) s = onBoth s (u.gives d (w64 n) (tripFrom s.cur p.cl)) := by
  show execTaskdec d a s = _
  simp only [execTaskdec, hp, htile, Bool.false_eq_true, if_false, if_neg (not_not_intro hdev), releasing_released hrel, hbad, hcell]

end

/-- Settles O27: TASKDEC gives what the decrement of the cell leaves, which has one case for an empty cell, one for a last count that
makes a parked task ready, and one for the others. -/
theorem taskCells : Obligations.TaskCells := by
  unfold Obligations.TaskCells
  intro s d a p hpc hp htile hdev hrel t v count park lat hbad
  have hlat : lat = tripFrom s.cur p.cl := (tripFrom_eq s.cur p.cl).symm
  rw [hlat]
  have counted : ∀ {n u}, t.decCell p.key = some (n, u) → Gives (.taskdec d a) s u d (w64 n) 0 (tripFrom s.cur p.cl) :=
    fun hcell => gives_onBoth hpc (exec_taskdec_counted hp htile hdev hrel hbad hcell)
  refine ⟨fun h0 => ?empty, fun h0 hlast => ?counts, fun h1 hpark => ?parked⟩
  case empty => exact gives_onBoth hpc (exec_taskdec_empty hp htile hdev hrel hbad (decCell_empty h0))
  case counts => exact counted (decCell_counts h0 hlast)
  case parked =>
    refine ⟨_, counted (decCell_parked h1 hpark), ?cell, fun x hx => ?others, makeReady_eq _ _ _, ready_makeReady _ _ _⟩
    case cell => rw [State.numAt, State.bytesAt, mem_makeReady]; exact numAt_put t p.key 8 0
    case others => rw [State.byteAt, mem_makeReady]; exact byteAt_put_out t p.key _ x (by rwa [length_leBytes])

end Sys2Proof.Machine
end
